-- ==== Sys2Proof/Word.lean ====
section
/-! DEFINITION. The word types of 00_scope.md R11: a byte is 8 bits, a `u16` is 16 bits, and a byte sequence (R12) is a list whose
first element is the first byte on the wire. -/

namespace Sys2Proof

/-- A byte (R11). -/
abbrev Byte := BitVec 8

/-- An unsigned 16-bit value, the `u16` of R11. -/
abbrev Half := BitVec 16

/-- A byte sequence (R12). -/
abbrev Bytes := List Byte

end Sys2Proof
end

