-- ==== Sys2Proof/Config.lean ====
section
/-! DEFINITION. What one build fixes: the constants of 00_scope.md R5, the parameters of R6, and the values the environment draws
(R13 `draw`, 93_implementation_defined.md "any value"). -/

namespace Sys2Proof

/-- `FLAG`, the frame delimiter (R5). -/
def flagByte : Byte := 0x7E

/-- `ESC`, the escape byte (R5). -/
def escByte : Byte := 0x7D

/-- `ESC_XOR`, the value XORed into an escaped byte (R5). -/
def escXor : Byte := 0x20

/-- `CRC_POLY` (R5). -/
def crcPoly : Half := 0x8408

/-- `CRC_INIT` (R5). There is no final XOR (90_conflicts.md C1). -/
def crcInit : Half := 0xFFFF

/-- `HDR_LEN`, the bytes of a message header (R5). -/
def hdrLen : Nat := 9

/-- `FRAG_MAX`, the most payload bytes in one fragment (R5). -/
def fragMax : Nat := 256

/-- `ERASED`, the value of an erased flash byte (R5). -/
def erasedByte : Byte := 0xFF

/-- The parameters of R6. They are data of the state (`State.cfg`), which no operation writes (R20: "constants of one build"), so
that a statement about every state is a statement about every build. DESIGN CHOICE, unsafe in `State.reset` only (log 1). -/
structure Params where
  /-- `USE_CRC`. -/
  useCrc : Bool
  /-- `MAX_BODY`. -/
  maxBody : Nat
  /-- The first byte of `TRAILER_NOCRC`. -/
  trailer0 : Byte
  /-- The second byte of `TRAILER_NOCRC`. -/
  trailer1 : Byte
  /-- `MAX_MESSAGE`. -/
  maxMessage : Nat
  /-- `REASM_TIMEOUT`, ticks. -/
  reasmTimeout : Nat
  /-- `FLASH_BASE`. -/
  flashBase : Nat
  /-- `FLASH_SIZE`, bytes. -/
  flashSize : Nat
  /-- `FLASH_SECTOR`. -/
  flashSector : Nat
  /-- `SCAN_LEN`, bytes. -/
  scanLen : Nat
  /-- `PROG_UNIT`, bytes. -/
  progUnit : Nat
  /-- `FLASH_KEY1`. -/
  flashKey1 : Nat
  /-- `FLASH_KEY2`. -/
  flashKey2 : Nat
  /-- `WDG_TIMEOUT`, ticks. -/
  wdgTimeout : Nat
  /-- `FEED_PERIOD`, ticks. -/
  feedPeriod : Nat
  /-- `FAULT_WORD`, bits of a fault register. -/
  faultWord : Nat
  /-- `N_FSR`, the number of fault status registers. -/
  nFsr : Nat
  /-- `RETAIN_FAULT`. -/
  retainFault : Bool
deriving DecidableEq, Repr

/-- The column "constraint" of R6. -/
def Params.wf (p : Params) : Bool :=
  decide (2 ≤ p.maxBody) && decide (256 ≤ p.maxMessage) && decide (0 < p.reasmTimeout) && decide (0 < p.flashSize) &&
  decide (1 ≤ p.scanLen) && decide (p.scanLen ≤ p.flashSize) && decide (0 < p.progUnit) && decide (p.progUnit ∣ p.flashSize) &&
  decide (p.flashKey1 ≠ p.flashKey2) && decide (0 < p.wdgTimeout) && decide (0 < p.faultWord) && decide (1 ≤ p.nFsr)

/-- The values of 95_test_vectors.md ("Unless said otherwise ..." and section L2), for `State.reset` and the tests only. R8: no rule
depends on a default. DESIGN CHOICE, unsafe (log 1). -/
def Params.vectors : Params where
  useCrc := true
  maxBody := 267
  trailer0 := 0x00
  trailer1 := 0x00
  maxMessage := 65536
  reasmTimeout := 3
  flashBase := 0
  flashSize := 131072
  flashSector := 0
  scanLen := 131072
  progUnit := 1
  flashKey1 := 0
  flashKey2 := 1
  wdgTimeout := 4
  feedPeriod := 1
  faultWord := 32
  nFsr := 2
  retainFault := false

/-- `fail <- draw Bool` (R254, R263): whether the controller reports a failure at draw number `n`. A free value: it has no body, so
no proof knows it (log 7). -/
opaque Config.drawFail : Nat → Bool

/-- The byte at offset `a` when flash bytes are drawn (R270 to R272) at draw number `n`. A free value (log 7). -/
opaque Config.drawByte : (n : Nat) → (a : Nat) → BitVec 8

/-- Whether a running erase or unit program is completed now or a tick passes first (R395: the duration is "unbounded in the model
and chosen by `ENV`"), at draw number `n`. A free value (log 6). -/
opaque Config.drawReady : Nat → Bool

end Sys2Proof
end

