-- ==== Sys2Proof/Syntax.lean ====
section
/-! DEFINITION. The operations of the block and the other rows of spec/opcode_table.json, one constructor per row (30_encoding.md
R110, R111, R92 to R94, R100, R103, R116; 41_frame_decoder.md R150), and the request an agent presents for one of them. -/

namespace Sys2Proof

/-- The causes of a reset, the operand of SYS.RESET (45_monitor.md R312). -/
inductive Cause where
  | hardFault
  | watchdogTimeout
  | external
  | powerOn
deriving DecidableEq, Repr

/-- The ten error results, the closed taxonomy of 60_exceptions.md R330. -/
inductive ErrorName where
  | truncated
  | overflow
  | crcMismatch
  | malformedHeader
  | fragmentOutOfOrder
  | reassemblyBusy
  | unknownCommand
  | notClean
  | eraseFailed
  | programFailed
deriving DecidableEq, Repr

/-- The instructions: one constructor per row of the table, in the table's order. -/
inductive Instr where
  -- format OP: R110
  | encFrame (payload : Bytes) (useCrc : Bool)
  | encEscape (s : Bytes)
  | decPush (b : Byte)
  | decReset
  | crcBlock (s : Bytes)
  | crcUpdate (c : Half) (b : Byte)
  | crcAppend (s : Bytes)
  | crcVerify (body : Bytes)
  | msgSend (command : Half) (id : Byte) (payload : Bytes)
  | msgRecv (p : Bytes)
  | msgTick
  | flScan
  | flErase
  | flWrite (offset : Nat) (data : Bytes)
  | flRead (offset : Nat) (length : Nat)
  | flBoot
  | wdgArm (timeout : Nat)
  | wdgFeed
  | wdgTick
  | hfEnter (pc : Nat) (lr : Nat) (fsr : List Nat)
  | hfCapture
  | hfLog
  | hfReset
  | sysReset (cause : Cause)
  -- format PHASE: R111
  | flcUnlock
  | flcSelectErase
  | flcStartErase
  | flcCompleteErase
  | flcLock
  | flcSelectProgram
  | flcProgramUnit (i : Nat)
  | flcCompleteUnit (i : Nat)
  | flcVerify
  -- format DECSTEP: the cells of R150
  | decIdleFlag
  | decIdleOther (b : Byte)
  | decInFrameFlagNonempty
  | decInFrameFlagEmpty
  | decInFrameEsc
  | decInFrameData (b : Byte)
  | decEscapedNonFlag (b : Byte)
  | decEscapedFlag
  -- format WIREBYTE: R92
  | wireFlag
  | wireEsc
  | wireData (b : Byte)
  -- format WIREPAIR: R93, R94, R159
  | pairEscFlag
  | pairEscEsc
  | pairEscAny (b : Byte)
  | pairAbort
  -- format MSGHDR: R100
  | msgHeader (command : Half) (id : Byte) (count : Half) (index : Half) (length : Half) (data : Bytes)
  -- format MSGCMD: R103
  | cmdAck (id : Byte) (data : Bytes)
  | cmdNak (id : Byte) (data : Bytes)
  | cmdPing (id : Byte) (data : Bytes)
  | cmdRaw (id : Byte) (data : Bytes)
  | cmdUnknown (command : Half) (id : Byte) (data : Bytes)
  -- format ERRCODE: R116
  | errTruncated
  | errOverflow
  | errCrcMismatch
  | errMalformedHeader
  | errFragmentOutOfOrder
  | errReassemblyBusy
  | errUnknownCommand
  | errNotClean
  | errEraseFailed
  | errProgramFailed
  | errHardFault (pc : Nat) (lr : Nat) (fsr : List Nat)
  | errWatchdogTimeout
deriving DecidableEq, Repr

/-- The agents of 00_scope.md R10 that present a request or own a row. -/
inductive Agent where
  | sw
  /-- The transmit path of `SW`, its task "serial transmit" (70_reset_and_hazards.md R375, R380). It is `SW`, told apart because it may
  not touch the receive path (10_state.md R21, U21; log 21). -/
  | swTx
  | rxsrc
  | dec
  | msg
  | flc
  | wdg
  | cpu
  | hf
  | env
deriving DecidableEq, Repr

/-- The code spaces of the table's formats. A code means something only in its space (log 3). -/
inductive Space where
  /-- 8-bit select codes, R110. -/
  | op
  /-- Phases, which have no select code (R111). -/
  | phase
  /-- The cells of R150, all of select code 0x20. -/
  | cell
  /-- Bytes and byte pairs on the receive stream, R92 to R94. -/
  | wire
  /-- The 9-byte message header, R100. -/
  | header
  /-- 16-bit command codes, R103. -/
  | command
  /-- 8-bit error codes, R116. -/
  | error
deriving DecidableEq, Repr

/-- The phases of R111, in its order. -/
inductive PhaseName where
  | unlock
  | selectErase
  | startErase
  | completeErase
  | lock
  | selectProgram
  | programUnit
  | completeUnit
  | verify
deriving DecidableEq, Repr

/-- The cells of the dispatch table of R150, in the opcode table's order. -/
inductive CellName where
  | idleFlag
  | idleOther
  | inFrameFlagNonempty
  | inFrameFlagEmpty
  | inFrameEsc
  | inFrameData
  | escapedNonFlag
  | escapedFlag
deriving DecidableEq, Repr

/-- The operand forms of R113, handed over whole; phases and cells, which R111 and R150 give no number, are handed over by name. -/
inductive Operand where
  | bytes (s : Bytes)
  | nat (n : Nat)
  | nats (l : List Nat)
  | bit (b : Bool)
  | u8 (b : Byte)
  | u16 (h : Half)
  | cause (c : Cause)
  | phase (p : PhaseName)
  | cell (c : CellName)
deriving DecidableEq, Repr

/-- One transaction an agent presents on its port (D2): who, in which code space, the code's bytes in the order they are stored or
sent, and the operands. DESIGN CHOICE (log 2). -/
structure Request where
  /-- Who presents it (R112). -/
  agent : Agent
  /-- The code space. -/
  space : Space
  /-- The bytes of the code, first byte first. -/
  code : Bytes
  /-- The operands in the order of R110. -/
  operands : List Operand
deriving DecidableEq, Repr

end Sys2Proof
end

