-- ==== Sys2Proof/WellFormed.lean ====
section
/-! DEFINITION. Which terms of `Instr` are instructions of the block: the limits the opcode table and the rules put on the operands
alone. Limits that depend on the state (the region, the lock, the phase) are the meanings' business. -/

namespace Sys2Proof

/-- A command code that R103 names. -/
def knownCommand (c : Half) : Bool := c == 0x0001 || c == 0x0002 || c == 0x0003 || c == 0x0004

/-- The fault registers are `N_FSR + 2` values of `FAULT_WORD` bits (R305). -/
def faultRegsOk (p : Params) (pc lr : Nat) (fsr : List Nat) : Bool :=
  decide (pc < 2 ^ p.faultWord) && decide (lr < 2 ^ p.faultWord) && decide (fsr.length = p.nFsr) &&
  fsr.all (fun v => decide (v < 2 ^ p.faultWord))

/-- The operand limits: CRC.VERIFY's length (R185), MSG.SEND's fragment count (R201), WDG.ARM's timeout (R291), the fault registers'
width and number (R305), and the bytes and codes each row of a class excludes (R92, R94, R103, R150). -/
def Instr.wellFormed (p : Params) : Instr → Bool
  | .crcVerify body => decide (2 ≤ body.length)
  | .msgSend _ _ payload => decide (payload.length ≤ 16776960)
  | .wdgArm timeout => decide (0 < timeout)
  | .hfEnter pc lr fsr => faultRegsOk p pc lr fsr
  | .errHardFault pc lr fsr => faultRegsOk p pc lr fsr
  | .decIdleOther b => decide (b ≠ flagByte)
  | .decInFrameData b => decide (b ≠ flagByte) && decide (b ≠ escByte)
  | .decEscapedNonFlag b => decide (b ≠ flagByte)
  | .wireData b => decide (b ≠ flagByte) && decide (b ≠ escByte)
  | .pairEscAny b => decide (b ≠ flagByte) && decide (b ≠ 0x5E) && decide (b ≠ 0x5D)
  | .cmdUnknown c _ _ => !knownCommand c
  | .encFrame _ _ | .encEscape _ | .decPush _ | .decReset | .crcBlock _ | .crcUpdate _ _ | .crcAppend _ | .msgRecv _ | .msgTick
  | .flScan | .flErase | .flWrite _ _ | .flRead _ _ | .flBoot | .wdgFeed | .wdgTick | .hfCapture | .hfLog | .hfReset | .sysReset _
  | .flcUnlock | .flcSelectErase | .flcStartErase | .flcCompleteErase | .flcLock | .flcSelectProgram | .flcProgramUnit _
  | .flcCompleteUnit _ | .flcVerify | .decIdleFlag | .decInFrameFlagNonempty | .decInFrameFlagEmpty | .decInFrameEsc
  | .decEscapedFlag | .wireFlag | .wireEsc | .pairEscFlag | .pairEscEsc | .pairAbort | .msgHeader _ _ _ _ _ _ | .cmdAck _ _
  | .cmdNak _ _ | .cmdPing _ _ | .cmdRaw _ _ | .errTruncated | .errOverflow | .errCrcMismatch | .errMalformedHeader
  | .errFragmentOutOfOrder | .errReassemblyBusy | .errUnknownCommand | .errNotClean | .errEraseFailed | .errProgramFailed
  | .errWatchdogTimeout => true

end Sys2Proof
end

