-- ==== Sys2Proof/Decode.lean ====
section
/-! DEFINITION. Reading a request as an instruction, and writing an instruction as the request that presents it: the select codes of
30_encoding.md R110, the phases of R111, the cells of 41_frame_decoder.md R150, the wire bytes and pairs of R92 to R94, the header of
R100, the command codes of R103 and the error codes of R116. -/

namespace Sys2Proof

/-- `lo8(v) = v[7:0]` (R11). -/
def lo8 (v : Half) : Byte := v.setWidth 8

/-- `hi8(v) = v[15:8]` (R11). -/
def hi8 (v : Half) : Byte := (v >>> 8).setWidth 8

/-- `le16(b0, b1) = b0 | (b1 << 8)` (R11): `b0` comes first. -/
def le16 (b0 b1 : Byte) : Half := b0.setWidth 16 ||| (b1.setWidth 16 <<< 8)

/-- Why a request is not an instruction. -/
inductive Reject where
  /-- A select code R110 does not list (R112). -/
  | reservedSelect
  /-- A code of the wrong number of bytes for its space. -/
  | codeLength
  /-- An error code R116 does not list. -/
  | reservedError
  /-- A pair on the wire whose first byte is not 0x7D (R94). -/
  | notAPair
  /-- Operands that are not of the number and forms of R110 and R113. -/
  | badOperands
deriving DecidableEq, Repr

/-- The names of the 24 operations of R110. -/
inductive OpName where
  | encFrame
  | encEscape
  | decPush
  | decReset
  | crcBlock
  | crcUpdate
  | crcAppend
  | crcVerify
  | msgSend
  | msgRecv
  | msgTick
  | flScan
  | flErase
  | flWrite
  | flRead
  | flBoot
  | wdgArm
  | wdgFeed
  | wdgTick
  | hfEnter
  | hfCapture
  | hfLog
  | hfReset
  | sysReset
deriving DecidableEq, Repr

/-- The column "code" of R110. -/
def selectTable : List (Byte × OpName) :=
  [(0x10, .encFrame), (0x11, .encEscape), (0x20, .decPush), (0x21, .decReset),
   (0x30, .crcBlock), (0x31, .crcUpdate), (0x32, .crcAppend), (0x33, .crcVerify),
   (0x40, .msgSend), (0x41, .msgRecv), (0x42, .msgTick),
   (0x50, .flScan), (0x51, .flErase), (0x52, .flWrite), (0x53, .flRead), (0x54, .flBoot),
   (0x60, .wdgArm), (0x61, .wdgFeed), (0x62, .wdgTick),
   (0x70, .hfEnter), (0x71, .hfCapture), (0x72, .hfLog), (0x73, .hfReset), (0x7F, .sysReset)]

/-- The operation a select code selects; every other code is reserved (R112). -/
def opOfCode (c : Byte) : Option OpName := selectTable.lookup c

/-- What an error code names: one of the ten error results, or one of the two fault events (R116). -/
inductive CodeName where
  | error (e : ErrorName)
  | hardFault
  | watchdogTimeout
deriving DecidableEq, Repr

/-- The table of R116. -/
def errorTable : List (Byte × CodeName) :=
  [(0x11, .error .truncated), (0x12, .error .overflow), (0x13, .error .crcMismatch),
   (0x21, .error .malformedHeader), (0x22, .error .fragmentOutOfOrder), (0x23, .error .reassemblyBusy),
   (0x24, .error .unknownCommand), (0x31, .error .notClean), (0x32, .error .eraseFailed), (0x33, .error .programFailed),
   (0x41, .hardFault), (0x42, .watchdogTimeout)]

/-- The error or fault event a code names (R116). -/
def nameOfErrorCode (c : Byte) : Option CodeName := errorTable.lookup c

/-- The constructor of an error result's row. -/
def errorInstr : ErrorName → Instr
  | .truncated => .errTruncated
  | .overflow => .errOverflow
  | .crcMismatch => .errCrcMismatch
  | .malformedHeader => .errMalformedHeader
  | .fragmentOutOfOrder => .errFragmentOutOfOrder
  | .reassemblyBusy => .errReassemblyBusy
  | .unknownCommand => .errUnknownCommand
  | .notClean => .errNotClean
  | .eraseFailed => .errEraseFailed
  | .programFailed => .errProgramFailed

/-- An operation with its operands, in the order of R110; `bytes` comes whole (R113). -/
def readOp (o : OpName) (ops : List Operand) : Except Reject Instr :=
  match o with
  | .encFrame => match ops with
    | [.bytes payload, .bit useCrc] => .ok (.encFrame payload useCrc)
    | _ => .error .badOperands
  | .encEscape => match ops with
    | [.bytes s] => .ok (.encEscape s)
    | _ => .error .badOperands
  | .decPush => match ops with
    | [.u8 b] => .ok (.decPush b)
    | _ => .error .badOperands
  | .decReset => match ops with
    | [] => .ok .decReset
    | _ => .error .badOperands
  | .crcBlock => match ops with
    | [.bytes s] => .ok (.crcBlock s)
    | _ => .error .badOperands
  | .crcUpdate => match ops with
    | [.u16 c, .u8 b] => .ok (.crcUpdate c b)
    | _ => .error .badOperands
  | .crcAppend => match ops with
    | [.bytes s] => .ok (.crcAppend s)
    | _ => .error .badOperands
  | .crcVerify => match ops with
    | [.bytes body] => .ok (.crcVerify body)
    | _ => .error .badOperands
  | .msgSend => match ops with
    | [.u16 command, .u8 id, .bytes payload] => .ok (.msgSend command id payload)
    | _ => .error .badOperands
  | .msgRecv => match ops with
    | [.bytes p] => .ok (.msgRecv p)
    | _ => .error .badOperands
  | .msgTick => match ops with
    | [] => .ok .msgTick
    | _ => .error .badOperands
  | .flScan => match ops with
    | [] => .ok .flScan
    | _ => .error .badOperands
  | .flErase => match ops with
    | [] => .ok .flErase
    | _ => .error .badOperands
  | .flWrite => match ops with
    | [.nat offset, .bytes data] => .ok (.flWrite offset data)
    | _ => .error .badOperands
  | .flRead => match ops with
    | [.nat offset, .nat length] => .ok (.flRead offset length)
    | _ => .error .badOperands
  | .flBoot => match ops with
    | [] => .ok .flBoot
    | _ => .error .badOperands
  | .wdgArm => match ops with
    | [.nat timeout] => .ok (.wdgArm timeout)
    | _ => .error .badOperands
  | .wdgFeed => match ops with
    | [] => .ok .wdgFeed
    | _ => .error .badOperands
  | .wdgTick => match ops with
    | [] => .ok .wdgTick
    | _ => .error .badOperands
  | .hfEnter => match ops with
    | [.nat pc, .nat lr, .nats fsr] => .ok (.hfEnter pc lr fsr)
    | _ => .error .badOperands
  | .hfCapture => match ops with
    | [] => .ok .hfCapture
    | _ => .error .badOperands
  | .hfLog => match ops with
    | [] => .ok .hfLog
    | _ => .error .badOperands
  | .hfReset => match ops with
    | [] => .ok .hfReset
    | _ => .error .badOperands
  | .sysReset => match ops with
    | [.cause cause] => .ok (.sysReset cause)
    | _ => .error .badOperands

/-- A phase of R111, handed over by name, with its unit index where it has one. -/
def readPhase (ops : List Operand) : Except Reject Instr :=
  match ops with
  | [.phase .unlock] => .ok .flcUnlock
  | [.phase .selectErase] => .ok .flcSelectErase
  | [.phase .startErase] => .ok .flcStartErase
  | [.phase .completeErase] => .ok .flcCompleteErase
  | [.phase .lock] => .ok .flcLock
  | [.phase .selectProgram] => .ok .flcSelectProgram
  | [.phase .programUnit, .nat i] => .ok (.flcProgramUnit i)
  | [.phase .completeUnit, .nat i] => .ok (.flcCompleteUnit i)
  | [.phase .verify] => .ok .flcVerify
  | _ => .error .badOperands

/-- A cell of R150: select code 0x20 and the cell's name, with the byte where the cell leaves it open. -/
def readCell (code : Bytes) (ops : List Operand) : Except Reject Instr :=
  match code with
  | [c] =>
    if c = 0x20 then
      match ops with
      | [.cell .idleFlag] => .ok .decIdleFlag
      | [.cell .idleOther, .u8 b] => .ok (.decIdleOther b)
      | [.cell .inFrameFlagNonempty] => .ok .decInFrameFlagNonempty
      | [.cell .inFrameFlagEmpty] => .ok .decInFrameFlagEmpty
      | [.cell .inFrameEsc] => .ok .decInFrameEsc
      | [.cell .inFrameData, .u8 b] => .ok (.decInFrameData b)
      | [.cell .escapedNonFlag, .u8 b] => .ok (.decEscapedNonFlag b)
      | [.cell .escapedFlag] => .ok .decEscapedFlag
      | _ => .error .badOperands
    else .error .reservedSelect
  | _ => .error .codeLength

/-- The class of one received byte (R92). -/
def readWireByte (b : Byte) : Instr :=
  if b = flagByte then .wireFlag else if b = escByte then .wireEsc else .wireData b

/-- The second byte of a pair that 0x7D opens (R93, R94, R159). -/
def readWirePair (b : Byte) : Instr :=
  if b = 0x5E then .pairEscFlag else if b = 0x5D then .pairEscEsc else if b = flagByte then .pairAbort else .pairEscAny b

/-- One or two bytes of the receive stream. -/
def readWire (code : Bytes) : Except Reject Instr :=
  match code with
  | [b] => .ok (readWireByte b)
  | [e, b] => if e = escByte then .ok (readWirePair b) else .error .notAPair
  | _ => .error .codeLength

/-- The nine bytes of a header, in the order of R100, with the bytes that follow it. -/
def readHeader (code : Bytes) (ops : List Operand) : Except Reject Instr :=
  match code with
  | [c0, c1, id, n0, n1, i0, i1, l0, l1] =>
    match ops with
    | [.bytes data] => .ok (.msgHeader (le16 c0 c1) id (le16 n0 n1) (le16 i0 i1) (le16 l0 l1) data)
    | _ => .error .badOperands
  | _ => .error .codeLength

/-- A command code matched on all 16 bits (R103). -/
def readCommandCode (c : Half) (id : Byte) (data : Bytes) : Instr :=
  if c = 0x0001 then .cmdAck id data
  else if c = 0x0002 then .cmdNak id data
  else if c = 0x0003 then .cmdPing id data
  else if c = 0x0004 then .cmdRaw id data
  else .cmdUnknown c id data

/-- The two bytes of a command code, low byte first (R64), with the message's ID and payload. -/
def readCommand (code : Bytes) (ops : List Operand) : Except Reject Instr :=
  match code with
  | [b0, b1] =>
    match ops with
    | [.u8 id, .bytes data] => .ok (readCommandCode (le16 b0 b1) id data)
    | _ => .error .badOperands
  | _ => .error .codeLength

/-- An error code (R116), with the registers where it is HardFault's. -/
def readError (code : Bytes) (ops : List Operand) : Except Reject Instr :=
  match code with
  | [c] =>
    match nameOfErrorCode c with
    | none => .error .reservedError
    | some (.error e) => match ops with
      | [] => .ok (errorInstr e)
      | _ => .error .badOperands
    | some .hardFault => match ops with
      | [.nat pc, .nat lr, .nats fsr] => .ok (.errHardFault pc lr fsr)
      | _ => .error .badOperands
    | some .watchdogTimeout => match ops with
      | [] => .ok .errWatchdogTimeout
      | _ => .error .badOperands
  | _ => .error .codeLength

/-- An operation's select code and operands (R110, R112). -/
def readSelect (code : Bytes) (ops : List Operand) : Except Reject Instr :=
  match code with
  | [c] => match opOfCode c with
    | some o => readOp o ops
    | none => .error .reservedSelect
  | _ => .error .codeLength

/-- The decoder: total, rejecting by name. -/
def decode (r : Request) : Except Reject Instr :=
  match r.space with
  | .op => readSelect r.code r.operands
  | .phase => match r.code with
    | [] => readPhase r.operands
    | _ => .error .codeLength
  | .cell => readCell r.code r.operands
  | .wire => match r.operands with
    | [] => readWire r.code
    | _ => .error .badOperands
  | .header => readHeader r.code r.operands
  | .command => readCommand r.code r.operands
  | .error => readError r.code r.operands

/-! ## Who presents what -/

/-- Who may present a reset of each cause: HF.RESET's is the hardfault sequencer's, expiry's the watchdog's, the others the
environment's (R112, R312). -/
def causeIssuer : Cause → Agent
  | .hardFault => .hf
  | .watchdogTimeout => .wdg
  | .external => .env
  | .powerOn => .env

/-- The issuer of each row (R112). A row that is no operation belongs to the issuer of the operation it is a step of: a phase to FLC, a
cell, a wire byte or a frame error (DEC.PUSH) to RXSRC, a header or a message error (MSG.RECV) to SW, a command to MSG, a failed flash
sequence (FLC.LOCK) to FLC (logs 13 to 17, 21). -/
def issuerOf : Instr → Agent
  | .encFrame _ _ | .encEscape _ => .sw
  | .decPush _ => .rxsrc
  | .decReset => .sw
  | .crcBlock _ | .crcUpdate _ _ | .crcAppend _ | .crcVerify _ => .sw
  | .msgSend _ _ _ | .msgRecv _ | .msgTick => .sw
  | .flScan | .flErase | .flWrite _ _ | .flRead _ _ | .flBoot => .sw
  | .wdgArm _ | .wdgFeed => .sw
  | .wdgTick => .wdg
  | .hfEnter _ _ _ => .cpu
  | .hfCapture | .hfLog | .hfReset => .hf
  | .sysReset c => causeIssuer c
  | .flcUnlock | .flcSelectErase | .flcStartErase | .flcCompleteErase | .flcLock | .flcSelectProgram | .flcProgramUnit _
  | .flcCompleteUnit _ | .flcVerify => .flc
  | .decIdleFlag | .decIdleOther _ | .decInFrameFlagNonempty | .decInFrameFlagEmpty | .decInFrameEsc | .decInFrameData _
  | .decEscapedNonFlag _ | .decEscapedFlag => .rxsrc
  | .wireFlag | .wireEsc | .wireData _ | .pairEscFlag | .pairEscEsc | .pairEscAny _ | .pairAbort => .rxsrc
  | .msgHeader _ _ _ _ _ _ => .sw
  | .cmdAck _ _ | .cmdNak _ _ | .cmdPing _ _ | .cmdRaw _ _ | .cmdUnknown _ _ _ => .msg
  | .errTruncated | .errOverflow | .errCrcMismatch => .rxsrc
  | .errMalformedHeader | .errFragmentOutOfOrder | .errReassemblyBusy | .errUnknownCommand => .sw
  | .errNotClean => .sw
  | .errEraseFailed | .errProgramFailed => .flc
  | .errHardFault _ _ _ => .cpu
  | .errWatchdogTimeout => .wdg

/-- What SW's transmit path issues (R21: "transmission only reads application-provided buffers"): framing, the pure CRC functions, and
MSG.SEND. Everything else, DEC.RESET among it (R380, U21), it may not. -/
def isTransmit : Instr → Bool
  | .encFrame _ _ | .encEscape _ | .crcBlock _ | .crcUpdate _ _ | .crcAppend _ | .crcVerify _ | .msgSend _ _ _ => true
  | _ => false

/-- Who may present an instruction (R112, R380). -/
def mayIssue (a : Agent) (i : Instr) : Bool := a == issuerOf i || (a == .swTx && isTransmit i)

/-! ## The encoder -/

/-- The nine bytes of a header, R100 and R202. -/
def headerBytes (command : Half) (id : Byte) (count index length : Half) : Bytes :=
  [lo8 command, hi8 command, id, lo8 count, hi8 count, lo8 index, hi8 index, lo8 length, hi8 length]

/-- The code space, code and operands of each row. -/
def encodeParts : Instr → Space × Bytes × List Operand
  | .encFrame payload useCrc => (.op, [0x10], [.bytes payload, .bit useCrc])
  | .encEscape s => (.op, [0x11], [.bytes s])
  | .decPush b => (.op, [0x20], [.u8 b])
  | .decReset => (.op, [0x21], [])
  | .crcBlock s => (.op, [0x30], [.bytes s])
  | .crcUpdate c b => (.op, [0x31], [.u16 c, .u8 b])
  | .crcAppend s => (.op, [0x32], [.bytes s])
  | .crcVerify body => (.op, [0x33], [.bytes body])
  | .msgSend command id payload => (.op, [0x40], [.u16 command, .u8 id, .bytes payload])
  | .msgRecv p => (.op, [0x41], [.bytes p])
  | .msgTick => (.op, [0x42], [])
  | .flScan => (.op, [0x50], [])
  | .flErase => (.op, [0x51], [])
  | .flWrite offset data => (.op, [0x52], [.nat offset, .bytes data])
  | .flRead offset length => (.op, [0x53], [.nat offset, .nat length])
  | .flBoot => (.op, [0x54], [])
  | .wdgArm timeout => (.op, [0x60], [.nat timeout])
  | .wdgFeed => (.op, [0x61], [])
  | .wdgTick => (.op, [0x62], [])
  | .hfEnter pc lr fsr => (.op, [0x70], [.nat pc, .nat lr, .nats fsr])
  | .hfCapture => (.op, [0x71], [])
  | .hfLog => (.op, [0x72], [])
  | .hfReset => (.op, [0x73], [])
  | .sysReset cause => (.op, [0x7F], [.cause cause])
  | .flcUnlock => (.phase, [], [.phase .unlock])
  | .flcSelectErase => (.phase, [], [.phase .selectErase])
  | .flcStartErase => (.phase, [], [.phase .startErase])
  | .flcCompleteErase => (.phase, [], [.phase .completeErase])
  | .flcLock => (.phase, [], [.phase .lock])
  | .flcSelectProgram => (.phase, [], [.phase .selectProgram])
  | .flcProgramUnit i => (.phase, [], [.phase .programUnit, .nat i])
  | .flcCompleteUnit i => (.phase, [], [.phase .completeUnit, .nat i])
  | .flcVerify => (.phase, [], [.phase .verify])
  | .decIdleFlag => (.cell, [0x20], [.cell .idleFlag])
  | .decIdleOther b => (.cell, [0x20], [.cell .idleOther, .u8 b])
  | .decInFrameFlagNonempty => (.cell, [0x20], [.cell .inFrameFlagNonempty])
  | .decInFrameFlagEmpty => (.cell, [0x20], [.cell .inFrameFlagEmpty])
  | .decInFrameEsc => (.cell, [0x20], [.cell .inFrameEsc])
  | .decInFrameData b => (.cell, [0x20], [.cell .inFrameData, .u8 b])
  | .decEscapedNonFlag b => (.cell, [0x20], [.cell .escapedNonFlag, .u8 b])
  | .decEscapedFlag => (.cell, [0x20], [.cell .escapedFlag])
  | .wireFlag => (.wire, [0x7E], [])
  | .wireEsc => (.wire, [0x7D], [])
  | .wireData b => (.wire, [b], [])
  | .pairEscFlag => (.wire, [0x7D, 0x5E], [])
  | .pairEscEsc => (.wire, [0x7D, 0x5D], [])
  | .pairEscAny b => (.wire, [0x7D, b], [])
  | .pairAbort => (.wire, [0x7D, 0x7E], [])
  | .msgHeader command id count index length data => (.header, headerBytes command id count index length, [.bytes data])
  | .cmdAck id data => (.command, [0x01, 0x00], [.u8 id, .bytes data])
  | .cmdNak id data => (.command, [0x02, 0x00], [.u8 id, .bytes data])
  | .cmdPing id data => (.command, [0x03, 0x00], [.u8 id, .bytes data])
  | .cmdRaw id data => (.command, [0x04, 0x00], [.u8 id, .bytes data])
  | .cmdUnknown command id data => (.command, [lo8 command, hi8 command], [.u8 id, .bytes data])
  | .errTruncated => (.error, [0x11], [])
  | .errOverflow => (.error, [0x12], [])
  | .errCrcMismatch => (.error, [0x13], [])
  | .errMalformedHeader => (.error, [0x21], [])
  | .errFragmentOutOfOrder => (.error, [0x22], [])
  | .errReassemblyBusy => (.error, [0x23], [])
  | .errUnknownCommand => (.error, [0x24], [])
  | .errNotClean => (.error, [0x31], [])
  | .errEraseFailed => (.error, [0x32], [])
  | .errProgramFailed => (.error, [0x33], [])
  | .errHardFault pc lr fsr => (.error, [0x41], [.nat pc, .nat lr, .nats fsr])
  | .errWatchdogTimeout => (.error, [0x42], [])

/-- The request by which an instruction's issuer presents it. -/
def encode (i : Instr) : Request where
  agent := issuerOf i
  space := (encodeParts i).1
  code := (encodeParts i).2.1
  operands := (encodeParts i).2.2

/-! ## Words of the opcode table -/

/-- The operands of an operation when every operand bit is 0: empty sequences, zero numbers, `N_FSR` zero fault registers, and, since a
cause has no bits (R113), the cause `External`, which the environment may assert at any time (R312; log 3). -/
def zeroOperands (nFsr : Nat) : OpName → List Operand
  | .encFrame => [.bytes [], .bit false]
  | .encEscape => [.bytes []]
  | .decPush => [.u8 0]
  | .decReset => []
  | .crcBlock => [.bytes []]
  | .crcUpdate => [.u16 0, .u8 0]
  | .crcAppend => [.bytes []]
  | .crcVerify => [.bytes []]
  | .msgSend => [.u16 0, .u8 0, .bytes []]
  | .msgRecv => [.bytes []]
  | .msgTick => []
  | .flScan => []
  | .flErase => []
  | .flWrite => [.nat 0, .bytes []]
  | .flRead => [.nat 0, .nat 0]
  | .flBoot => []
  | .wdgArm => [.nat 0]
  | .wdgFeed => []
  | .wdgTick => []
  | .hfEnter => [.nat 0, .nat 0, .nats (List.replicate nFsr 0)]
  | .hfCapture => []
  | .hfLog => []
  | .hfReset => []
  | .sysReset => [.cause .external]

/-- The request of a one-byte word of the table: a select code where R110 lists it; else a flag or escape byte on the wire; else an
error code; else a reserved select code. The spaces overlap (log 3): 0x11 is ENC.ESCAPE here, and Truncated only in its own space. -/
def tableByte (nFsr : Nat) (b : Byte) : Space × Bytes × List Operand :=
  match opOfCode b with
  | some o => (.op, [b], zeroOperands nFsr o)
  | none =>
    if b = flagByte ∨ b = escByte then (.wire, [b], [])
    else if (nameOfErrorCode b).isSome then (.error, [b], [])
    else (.op, [b], [])

/-- The request of a word of the table. A 16-bit row is one 16-bit word: a pair whose high byte, 0x7D, is first on the wire
(R93, R94), or a command code, whose low byte is first (R64). Nine bytes are a header. -/
def tableParts (nFsr nbits w : Nat) : Space × Bytes × List Operand :=
  let v : Half := BitVec.ofNat 16 w
  if nbits = 8 then tableByte nFsr (BitVec.ofNat 8 w)
  else if nbits = 16 then
    if hi8 v = escByte then (.wire, [hi8 v, lo8 v], [])
    else (.command, [lo8 v, hi8 v], [.u8 0, .bytes []])
  else (.header, (List.range (nbits / 8)).map (fun k => BitVec.ofNat 8 (w >>> (8 * k))), [.bytes []])

/-- The request of a word of the table, presented by its issuer. -/
def tableRequest (nFsr nbits w : Nat) : Request :=
  let t := tableParts nFsr nbits w
  let r : Request := { agent := .sw, space := t.1, code := t.2.1, operands := t.2.2 }
  match decode r with
  | .ok i => { r with agent := issuerOf i }
  | .error _ => r

/-- The instruction the decoder reads from a word of the table. -/
def decodeTableWord (nbits w : Nat) : Option Instr :=
  match decode (tableRequest Params.vectors.nFsr nbits w) with
  | .ok i => some i
  | .error _ => none

end Sys2Proof
end

