-- ==== Sys2Proof/Machine/State.lean ====
section
/-! DEFINITION. The state of the block (10_state.md), its reset (R50), the memory of the flash region, and the reasons a step can
stop. -/

namespace Sys2Proof.Machine

/-- `dec.st` (R22). -/
inductive DecSt where
  | idle
  | inFrame
  | escaped
deriving DecidableEq, Repr

/-- The frame decoder (R22, R23). -/
structure Dec where
  /-- `dec.st`. -/
  st : DecSt
  /-- `dec.acc`. -/
  acc : Bytes
deriving DecidableEq, Repr

/-- The reassembly context of the message layer (R28 to R31). -/
structure Ctx where
  /-- `ctx.active`. -/
  active : Bool
  /-- `ctx.id`. -/
  id : Byte
  /-- `ctx.count`. -/
  count : Half
  /-- `ctx.next`. -/
  nextIdx : Half
  /-- `ctx.cmd`. -/
  cmd : Half
  /-- `ctx.buf`. -/
  buf : Bytes
  /-- `ctx.idle`. -/
  idle : Nat
deriving DecidableEq, Repr

/-- The flash region's bytes (R33) by offset from `FLASH_BASE`: pairs in rising order of offset, none of them 0xFF; an offset not
listed reads as `erasedByte`. DESIGN CHOICE, unsafe in `State.reset` only (log 8). -/
abbrev Memory := List Host.Cell

/-- The canonical form of `Memory`: offsets strictly rising, no entry that an unlisted offset reads as. -/
abbrev Memory.wf (m : Memory) : Prop := (m.map Prod.fst).Pairwise (· < ·) ∧ ∀ c ∈ m, c.2 ≠ erasedByte

/-- `fl.mode` (R36). -/
inductive FlMode where
  | none
  | sectorErase
  | program
deriving DecidableEq, Repr

/-- `fl.phase` (R38, R260). -/
inductive FlPhase where
  | ready
  | eUnlocked
  | eSelected
  | eBusy
  | eDone
  | wUnlocked
  | wMode
  | wBusy (i : Nat)
  | wVerify
deriving DecidableEq, Repr

/-- The flash operation `SW` is inside: FL.ERASE (also on behalf of FL.BOOT) or FL.WRITE. The model's own field, DEDUCED from R75,
R250, R251 and R258 (log 12). -/
inductive FlOp where
  | none
  | erase
  | write
deriving DecidableEq, Repr

/-- The flash unit (R33 to R38). -/
structure Fl where
  /-- `fl.mem`. -/
  mem : Memory
  /-- `fl.locked`. -/
  locked : Bool
  /-- `fl.keystep`. -/
  keystep : Nat
  /-- `fl.mode`. -/
  mode : FlMode
  /-- `fl.sector`. -/
  sector : Nat
  /-- `fl.busy`. -/
  busy : Bool
  /-- `fl.done`, the completion flag. -/
  complete : Bool
  /-- `fl.err`. -/
  err : Bool
  /-- `fl.phase`. -/
  phase : FlPhase
  /-- The operation in progress (log 12). -/
  op : FlOp
  /-- The offset of the FL.WRITE in progress (R262, log 12). -/
  offset : Nat
  /-- The data of the FL.WRITE in progress (R262, log 12). -/
  data : Bytes
  /-- The loop counter of the FL.WRITE in progress (R258, log 12). -/
  unit : Nat
  /-- The variable `failed` of FL.WRITE as FLC.VERIFY leaves it (R258, R264, log 12). -/
  failed : Bool
deriving DecidableEq, Repr

/-- The watchdog (R41 to R43). -/
structure Wdg where
  /-- `wdg.armed`. -/
  armed : Bool
  /-- `wdg.timeout`. -/
  timeout : Nat
  /-- `wdg.cnt`. -/
  cnt : Nat
deriving DecidableEq, Repr

/-- `hf.phase` (R45). -/
inductive HfPhase where
  | idle
  | entered
  | captured
  | logged
deriving DecidableEq, Repr

/-- The three kinds of value the processor presents (R45, R305): `FAULT_WORD` bits each (log 19). -/
structure FaultRegs where
  /-- The program counter. -/
  pc : Nat
  /-- The link register. -/
  lr : Nat
  /-- `fsr[0 .. N_FSR)`. -/
  fsr : List Nat
deriving DecidableEq, Repr

/-- The fault record (R46). -/
structure FaultRecord where
  /-- `hf.rec.valid`. -/
  valid : Bool
  /-- `hf.rec.pc`, `hf.rec.lr`, `hf.rec.fsr`. -/
  regs : FaultRegs
deriving DecidableEq, Repr

/-- The hardfault sequencer (R45, R46). -/
structure Hf where
  /-- `hf.phase`. -/
  phase : HfPhase
  /-- A second fault has stopped the sequencer (R310). The model's own field, DEDUCED (log 18). -/
  stuck : Bool
  /-- `hf.in`. -/
  input : FaultRegs
  /-- `hf.rec`. -/
  record : FaultRecord
deriving DecidableEq, Repr

/-- What an operation returns to its issuer (R13 `return`, R14). -/
inductive Result where
  /-- `None`, and what `ret` holds before any operation returned. -/
  | nothing
  | ok
  | bytes (s : Bytes)
  | word (h : Half)
  | bool (b : Bool)
  | clean
  | dirty
  /-- `Frame(payload)`. -/
  | frame (payload : Bytes)
  /-- `Err(e)`. -/
  | err (e : ErrorName)
  /-- The event `Ack(id, data)` (R221). -/
  | ack (id : Byte) (data : Bytes)
  /-- The event `Nak(id, data)` (R221). -/
  | nak (id : Byte) (data : Bytes)
  /-- The event `Raw(id, data)` (R223). -/
  | raw (id : Byte) (data : Bytes)
deriving DecidableEq, Repr

/-- What the decoder delivers on DEC_OUT (R13, R73): the results that are not `None`, in stream order. -/
inductive DecOut where
  | frame (payload : Bytes)
  | err (e : ErrorName)
deriving DecidableEq, Repr

/-- A structured event on LOG (D39). -/
inductive LogEvent where
  | error (e : ErrorName)
  | hardFault (regs : FaultRegs)
deriving DecidableEq, Repr

/-- How far SW is in the boot sequence it runs after every reset (70_reset_and_hazards.md R375): the operation it issues next. -/
inductive BootStep where
  /-- Step 1: WDG.ARM. -/
  | arm
  /-- Steps 2 and 3: FL.READ of the stored record, optional, then FL.BOOT. -/
  | store
  /-- Step 4: the tasks run. -/
  | tasks
deriving DecidableEq, Repr

/-- The state of the block (R20), the parameters of one build, and the model's own fields: SW's place in the boot sequence, the ports
and the draws. -/
structure State where
  /-- The parameters (R6); no operation writes them (log 1). -/
  cfg : Params
  /-- `dec`. -/
  dec : Dec
  /-- `ctx`. -/
  ctx : Ctx
  /-- `fl`. -/
  fl : Fl
  /-- `wdg`. -/
  wdg : Wdg
  /-- `hf`. -/
  hf : Hf
  /-- The last result returned to an issuer. The model's own field (log 11). -/
  ret : Result
  /-- The bytes emitted on TX so far (R62). The model's own field (log 10). -/
  tx : Bytes
  /-- The deliveries on DEC_OUT so far. The model's own field (log 10). -/
  decOut : List DecOut
  /-- The events on LOG so far. The model's own field (log 10). -/
  log : List LogEvent
  /-- The causes emitted on RESET so far (R312). The model's own field (log 10). -/
  resets : List Cause
  /-- SW's place in the boot sequence (R312, R372, R375; log 20). -/
  boot : BootStep
  /-- The requests the agents present in this run, first one first. The model's own field (log 2). -/
  port : List Request
  /-- The requests they present in the runs to come, one list for each reset that ends a run. The model's own field (log 25). -/
  runs : List (List Request)
  /-- How many values the environment has drawn. The model's own field (log 7). -/
  draws : Nat
deriving DecidableEq, Repr

/-- Fault registers with no value in them: 0 and no `fsr`. DESIGN CHOICE (log 9). -/
def FaultRegs.blank : FaultRegs where
  pc := 0
  lr := 0
  fsr := []

/-- The decoder's reset value (R22, R23, R50). -/
def Dec.reset : Dec where
  st := .idle
  acc := []

/-- The context's reset value (R28, R50). The fields but `active` hold no value; the model has 0 there. DESIGN CHOICE, unsafe (log 9). -/
def Ctx.reset : Ctx where
  active := false
  id := 0
  count := 0
  nextIdx := 0
  cmd := 0
  buf := []
  idle := 0

/-- The flash unit's reset value over a region `mem` (R34 to R38, R50). `sector` holds no value; the model has 0 there. DESIGN CHOICE,
unsafe (log 9). -/
def Fl.reset (mem : Memory) : Fl where
  mem := mem
  locked := true
  keystep := 0
  mode := .none
  sector := 0
  busy := false
  complete := false
  err := false
  phase := .ready
  op := .none
  offset := 0
  data := []
  unit := 0
  failed := false

/-- The watchdog's reset value (R41, R43, R50). `timeout` holds no value; the model has 0 there. DESIGN CHOICE, unsafe (log 9). -/
def Wdg.reset : Wdg where
  armed := false
  timeout := 0
  cnt := 0

/-- The sequencer's reset value over a fault record (R45, R50). `input` holds no value; the model has 0 there. DESIGN CHOICE, unsafe
(log 9). -/
def Hf.reset (record : FaultRecord) : Hf where
  phase := .idle
  stuck := false
  input := FaultRegs.blank
  record := record

/-- The block right after its first power-on (R50, R372), with the parameters of 95_test_vectors.md (log 1), an erased region (log 8), no
fault record, nothing emitted, SW at the start of its boot sequence, and nothing presented beside it. -/
def State.reset : State where
  cfg := Params.vectors
  dec := Dec.reset
  ctx := Ctx.reset
  fl := Fl.reset []
  wdg := Wdg.reset
  hf := Hf.reset { valid := false, regs := FaultRegs.blank }
  ret := .nothing
  tx := []
  decOut := []
  log := []
  resets := []
  boot := .arm
  port := []
  runs := []
  draws := 0

/-- Why the machine stops with a fault. -/
inductive Fault where
  /-- Raised by `step` alone: a second fault has stopped the hardfault sequencer and the watchdog is not armed, so no agent of the
  block has a step (R310 "the block is stuck for good", U8, U9). Safe: the model stops where the block stops. -/
  | stuck
deriving DecidableEq, Repr

/-- Why a request is refused. Each is a `refuse` of the spec (R13: outside the admitted subset, "a model refuses it, erring toward
unprovable"), hence safe. -/
inductive Refusal where
  /-- No meaning yet; raised by `exec` alone. Safe. No arm of this model uses it. -/
  | notModelled (mnemonic : String)
  /-- Raised by `step`: the request is no instruction (R112, U19). Safe. -/
  | undecodable (r : Reject)
  /-- Raised by `step`: presented by an agent R112 does not name (U19, U21). Safe. -/
  | wrongIssuer
  /-- Raised by CRC.VERIFY of fewer than two bytes (R185). Safe. -/
  | verifyTooShort
  /-- Raised by MSG.SEND of more than 65535 fragments (R201, U23). Safe. -/
  | messageTooLong
  /-- Raised by FL.* while a flash operation is in progress (R273, U13). Safe. -/
  | flashNotReady
  /-- Raised by FL.WRITE and FL.READ beyond the region (R259, R266, U12). Safe. -/
  | outsideRegion
  /-- Raised by FL.WRITE off the program units (R259, U12). Safe. -/
  | notUnitAligned
  /-- Raised by WDG.ARM while armed (R292, U15). Safe. -/
  | alreadyArmed
  /-- Raised by WDG.ARM with timeout 0 (R291, U15). Safe. -/
  | timeoutZero
  /-- Raised by HF.ENTER and HardFault with registers that are not `N_FSR + 2` values of `FAULT_WORD` bits (R305). Safe. -/
  | faultRegsWidth
  /-- Raised by HF.CAPTURE, HF.LOG and HF.RESET outside their phase, or once the sequencer is stuck (R306 to R310, U18). Safe. -/
  | hfOutOfOrder
  /-- Raised by HF.LOG when the record is not valid (R46, U17). Safe. -/
  | noFaultRecord
  /-- Raised by FLC.* outside its precondition (R251 to R264). Safe. -/
  | phaseNotEnabled
  /-- Raised by FLC.UNLOCK when the key port does not take the keys (R251, U11). Safe. -/
  | wrongKey
  /-- Raised by SYS.RESET(HardFault) where HF.RESET has no step, and by SYS.RESET(WatchdogTimeout) and WatchdogTimeout where WDG.TICK does
  not expire (R112, R295, R308). Safe. -/
  | resetNotRaised
  /-- Raised by a row ERR.* where its operation does not return that error (R330). Safe. -/
  | errorNotRaised
  /-- Raised by a cell of the decoder's table that `dec.st`, `dec.acc` and the byte do not select (R150). Safe. -/
  | cellNotSelected
deriving DecidableEq, Repr

end Sys2Proof.Machine
end

