-- ==== Sys2Proof/Machine/Ops.lean ====
section
/-! DEFINITION. The named operations over the state: one setter per unit, the ports (00_scope.md R13 `emit`), the flash region's memory
(20_memory.md R66, R67; 44_flash.md R254, R262), and the exceptions of the block as one shared operation each: an error result
(60_exceptions.md R330, R331), the trap entry (45_monitor.md R305, R310) and the reset that ends every fault event (R312). There is no
return from an exception (R346). -/

namespace Sys2Proof.Machine

/-! ## Setters and ports -/

/-- Replace the decoder. -/
def State.setDec (s : State) (d : Dec) : State := { s with dec := d }

/-- Replace the reassembly context. -/
def State.setCtx (s : State) (c : Ctx) : State := { s with ctx := c }

/-- Replace the flash unit. -/
def State.setFl (s : State) (f : Fl) : State := { s with fl := f }

/-- Replace the watchdog. -/
def State.setWdg (s : State) (w : Wdg) : State := { s with wdg := w }

/-- Replace the hardfault sequencer. -/
def State.setHf (s : State) (h : Hf) : State := { s with hf := h }

/-- `return r` (R13). -/
def State.setRet (s : State) (r : Result) : State := { s with ret := r }

/-- Replace the requests still to be presented. -/
def State.setPort (s : State) (p : List Request) : State := { s with port := p }

/-- `emit(TX, ·)` of a byte sequence, in order and contiguous (R62). -/
def State.emitTx (s : State) (b : Bytes) : State := { s with tx := s.tx ++ b }

/-- `emit(DEC_OUT, ·)` (R13, R73). -/
def State.emitDec (s : State) (d : DecOut) : State := { s with decOut := s.decOut ++ [d] }

/-- `emit(LOG, ·)` (R13, D39). -/
def State.emitLog (s : State) (e : LogEvent) : State := { s with log := s.log ++ [e] }

/-- `emit(RESET, ·)` (R312). -/
def State.emitReset (s : State) (c : Cause) : State := { s with resets := s.resets ++ [c] }

/-- Move SW in its boot sequence (R375). -/
def State.setBoot (s : State) (b : BootStep) : State := { s with boot := b }

/-- The environment has drawn once more (R13 `draw`, log 7). -/
def State.countDraw (s : State) : State := { s with draws := s.draws + 1 }

/-! ## The region's memory -/

/-- The byte at offset `a`; an unlisted offset is erased (log 8). -/
def memGet : Memory → Nat → Byte
  | [], _ => erasedByte
  | (k, b) :: t, a => if k = a then b else memGet t a

/-- Make the byte at offset `a` be `v`, keeping the canonical form. -/
def memSet : Memory → Nat → Byte → Memory
  | [], a, v => if v = erasedByte then [] else [(a, v)]
  | (k, b) :: t, a, v =>
    if a < k then (if v = erasedByte then (k, b) :: t else (a, v) :: (k, b) :: t)
    else if a = k then (if v = erasedByte then t else (a, v) :: t)
    else (k, b) :: memSet t a v

/-- The `n` bytes from offset `a`, lowest address first. -/
def memRange (m : Memory) (a n : Nat) : Bytes := (List.range n).map (fun k => memGet m (a + k))

/-- `MemRead(addr, n)` (R66): only inside the region; no side effect. -/
def memRead (p : Params) (m : Memory) (addr n : Nat) : Option Bytes :=
  if p.flashBase ≤ addr ∧ addr + n ≤ p.flashBase + p.flashSize then some (memRange m (addr - p.flashBase) n) else none

/-- `FlashProg` (R262) at offset `a`: each byte becomes `old & new`. -/
def memProg : Memory → Nat → Bytes → Memory
  | m, _, [] => m
  | m, a, v :: t => memProg (memSet m a (memGet m a &&& v)) (a + 1) t

/-- `FlashErase()` (R254): every byte of the region is 0xFF. -/
def memErase (_m : Memory) : Memory := []

/-- The `n` bytes from offset `a` become what `f` draws for their offsets (R270 to R272). -/
def memDraw (f : Nat → Byte) (m : Memory) (a : Nat) : Nat → Memory
  | 0 => m
  | n + 1 => memSet (memDraw f m a n) (a + n) (f (a + n))

/-- What FL.SCAN computes (R241): some byte of the first `n` differs from 0xFF. An unlisted offset is 0xFF, so only the listed ones
are looked at. -/
def scanDirty (m : Memory) (n : Nat) : Bool := m.any (fun c => decide (c.1 < n) && decide (memGet m c.1 ≠ erasedByte))

/-! ## Error results -/

/-- The three families of R330. -/
inductive ErrorFamily where
  | frame
  | message
  | flash
deriving DecidableEq, Repr

/-- The family of an error result (R116, R330). -/
def errorFamily : ErrorName → ErrorFamily
  | .truncated | .overflow | .crcMismatch => .frame
  | .malformedHeader | .fragmentOutOfOrder | .reassemblyBusy | .unknownCommand => .message
  | .notClean | .eraseFailed | .programFailed => .flash

/-- The fields FLC.LOCK writes (R256), with the model's own fields of the finished operation at rest (log 12). -/
def lockedFl (f : Fl) : Fl :=
  { f with locked := true, mode := .none, complete := false, err := false, busy := false, phase := .ready,
           op := .none, offset := 0, data := [], unit := 0, failed := false }

/-- The column "state after" of R330, as far as the error itself sets it: a frame error leaves the decoder's baseline, out of order
releases the context, a failed flash operation leaves the controller locked. -/
def errorBaseline (e : ErrorName) (s : State) : State :=
  match e with
  | .truncated | .overflow | .crcMismatch => s.setDec Dec.reset
  | .fragmentOutOfOrder => s.setCtx { s.ctx with active := false }
  | .eraseFailed | .programFailed => s.setFl (lockedFl s.fl)
  | .malformedHeader | .reassemblyBusy | .unknownCommand | .notClean => s

/-- What the decoder puts on DEC_OUT for an error of its own (R73, R167). -/
def errorDelivery (e : ErrorName) (s : State) : State :=
  match errorFamily e with
  | .frame => s.emitDec (.err e)
  | .message | .flash => s

/-- `raise E` (R13): the one way an error result is taken. It leaves the state of R330, is emitted on LOG (R331, D39) and is returned
to the issuer; the run goes on. -/
def raiseError (e : ErrorName) (s : State) : State :=
  ((errorDelivery e (errorBaseline e s)).emitLog (.error e)).setRet (.err e)

/-- A row ERR.* of the table is the operation its line of R330 names, where that operation returns this error (log 17). -/
def whenRaised (e : ErrorName) (o : Host.Outcome State Fault Refusal) : Host.Outcome State Fault Refusal :=
  match o with
  | .next t => if t.ret = .err e then .next t else .refused .errorNotRaised
  | .fault f => .fault f
  | .refused r => .refused r

/-! ## Fault events -/

/-- The trap entry (R305, R345): the three kinds of value are latched and the level becomes the exception level. A second fault stops
the sequencer where it is (R310). -/
def enterHardFault (regs : FaultRegs) (s : State) : State :=
  if s.hf.phase = .idle then s.setHf { s.hf with phase := .entered, input := regs }
  else s.setHf { s.hf with stuck := true }

/-- The offset of unit `i` of the write in progress (R262). -/
def unitOffset (s : State) (i : Nat) : Nat := s.fl.offset + i * s.cfg.progUnit

/-- The region's content after a reset that cuts an operation (R270, R271): drawn where the controller was busy, unchanged
elsewhere. -/
def cutFlash (s : State) : State :=
  match s.fl.phase with
  | .eBusy => (s.setFl { s.fl with mem := memDraw (Config.drawByte s.draws) s.fl.mem 0 s.cfg.flashSize }).countDraw
  | .wBusy i =>
    (s.setFl { s.fl with mem := memDraw (Config.drawByte s.draws) s.fl.mem (unitOffset s i) s.cfg.progUnit }).countDraw
  | .ready | .eUnlocked | .eSelected | .eDone | .wUnlocked | .wMode | .wVerify => s

/-- The fault record after a reset (R47, R312). -/
def keptRecord (p : Params) (c : Cause) (r : FaultRecord) : FaultRecord :=
  if p.retainFault = false ∨ c = .powerOn then { r with valid := false } else r

/-- Every volatile field at its reset value (R50); the region and what `keptRecord` keeps survive (R313). -/
def resetVolatile (c : Cause) (s : State) : State :=
  { s with dec := Dec.reset, ctx := Ctx.reset, fl := Fl.reset s.fl.mem, wdg := Wdg.reset,
           hf := Hf.reset (keptRecord s.cfg c s.hf.record), ret := .nothing }

/-- "`SW` restarts at the boot sequence" (R312, R372). The run that was in progress is over (R342): what its agents had still to
present is not presented any more, and the requests of the next run take its place (log 25). -/
def restartRun (s : State) : State := { s with boot := .arm, port := s.runs.headD [], runs := s.runs.tail }

/-- `SYS.RESET(cause)` (R312): "full restart", the same for all four causes. -/
def systemReset (c : Cause) (s : State) : State := (restartRun (resetVolatile c (cutFlash s))).emitReset c

/-- The tick that would come now makes the count reach the timeout (R295, R296). -/
def watchdogExpires (s : State) : Bool := s.wdg.armed && decide (s.wdg.timeout ≤ s.wdg.cnt + 1)

/-- The sequencer is in this phase, and no second fault has stopped it (R306 to R308, R310). -/
def sequencerAt (p : HfPhase) (s : State) : Bool := decide (s.hf.phase = p) && !s.hf.stuck

/-- Where SYS.RESET may come from (R112): from HF.RESET, in its phase; from WDG.TICK, at expiry; from `ENV`, at any time. -/
def resetRaised (c : Cause) (s : State) : Bool :=
  match c with
  | .hardFault => sequencerAt .logged s
  | .watchdogTimeout => watchdogExpires s
  | .external | .powerOn => true

end Sys2Proof.Machine
end

