-- ==== Sys2Proof/Machine/Flags.lean ====
section
/-! DEFINITION. The status flags of the block (10_state.md R37, R48): what sets and clears `fl.busy`, `fl.done` and `fl.err`, and the
derived completion condition of the reassembly context (R31). The block has no other flags and no condition codes. -/

namespace Sys2Proof.Machine

/-- The flags at the start of an erase (R253). -/
def startEraseFlags (f : Fl) : Fl := { f with busy := true, complete := false, err := false }

/-- The flags at an erase's completion (R254); `fail` is the draw. -/
def finishEraseFlags (fail : Bool) (f : Fl) : Fl := { f with busy := false, complete := true, err := f.err || fail }

/-- The flags when program mode is selected (R261). -/
def selectProgramFlags (f : Fl) : Fl := { f with err := false }

/-- The flags at the start of a unit (R262). -/
def startUnitFlags (f : Fl) : Fl := { f with busy := true }

/-- The flags at a unit's completion (R263); `fail` is the draw. -/
def finishUnitFlags (fail : Bool) (f : Fl) : Fl := { f with busy := false, err := f.err || fail }

/-- The wait of FL.ERASE is over (R75, R255): it reads `fl.done`. -/
def eraseWaitOver (f : Fl) : Bool := f.complete

/-- The wait of FL.WRITE for a unit is over (R75, R263): it reads `fl.busy`. -/
def unitWaitOver (f : Fl) : Bool := !f.busy

/-- DOC0's "completion flag" of the context (R31). -/
def contextComplete (c : Ctx) : Bool := c.nextIdx == c.count

/-- The block is at exception level (R45, R352). -/
def atException (s : State) : Bool := s.hf.phase != .idle

/-- No flash operation is in progress: `fl.phase = Ready`, and SW is inside none (R273). -/
def flIdle (f : Fl) : Bool := f.phase == .ready && f.op == .none

end Sys2Proof.Machine
end

