-- ==== Sys2Proof/Machine/Operands.lean ====
section
/-! DEFINITION. The operand forms of the operations (30_encoding.md R92, R113): the class of a received byte, the fragments of a
payload (43_message_layer.md R200, R201), the range and the units of a flash operand (44_flash.md R259, R262). -/

namespace Sys2Proof.Machine

/-- The byte classes of R92. -/
inductive ByteClass where
  | flag
  | esc
  | data
deriving DecidableEq, Repr

/-- The class of a byte (R92). -/
def classify (b : Byte) : ByteClass := if b = flagByte then .flag else if b = escByte then .esc else .data

/-- `FragCount(n) = max(1, ceil(n / 256))` (R201). -/
def fragCount (n : Nat) : Nat := max 1 ((n + 255) / fragMax)

/-- The bytes of fragment `i` (R200): `payload[256*i .. min(256*(i+1), n))`. -/
def fragment (payload : Bytes) (i : Nat) : Bytes := (payload.drop (fragMax * i)).take fragMax

/-- `offset + n <= FLASH_SIZE` (R259, R266). -/
def inRegion (p : Params) (offset n : Nat) : Bool := decide (offset + n ≤ p.flashSize)

/-- `offset` and the length are multiples of `PROG_UNIT` (R259). -/
def onUnits (p : Params) (offset n : Nat) : Bool := decide (offset % p.progUnit = 0) && decide (n % p.progUnit = 0)

/-- The number of units of the write in progress, `m / PROG_UNIT` (R258). -/
def unitCount (s : State) : Nat := s.fl.data.length / s.cfg.progUnit

/-- The data of unit `i`: `bytes[i*PROG_UNIT .. (i+1)*PROG_UNIT)` (R262). -/
def unitData (s : State) (i : Nat) : Bytes := (s.fl.data.drop (i * s.cfg.progUnit)).take s.cfg.progUnit

end Sys2Proof.Machine
end

