-- ==== Sys2Proof/Machine/Crc.lean ====
section
/-! DEFINITION. The CRC-16 unit (42_crc.md): CRC.BLOCK, CRC.UPDATE, CRC.APPEND, CRC.VERIFY. The shift direction is D9's, from general
knowledge (log 22); there is no final XOR (90_conflicts.md C1). -/

namespace Sys2Proof.Machine

/-- One of the eight steps of R182. -/
def crcShift (c : Half) : Half := if c.getLsbD 0 then (c >>> 1) ^^^ crcPoly else c >>> 1

/-- `CRC.UPDATE(c, b)` (R182). -/
def crcStep (c : Half) (b : Byte) : Half :=
  crcShift (crcShift (crcShift (crcShift (crcShift (crcShift (crcShift (crcShift (c ^^^ b.setWidth 16))))))))

/-- `CRC.BLOCK(s)` (R183): the first byte first, no final XOR. -/
def crc16 (s : Bytes) : Half := s.foldl crcStep crcInit

/-- The two bytes of a CRC, low byte first (R64). -/
def crcTrailer (s : Bytes) : Bytes := [lo8 (crc16 s), hi8 (crc16 s)]

/-- The payload of a body: `body[0 .. n-2)` (R161). -/
def bodyPayload (body : Bytes) : Bytes := body.take (body.length - 2)

/-- `le16(body[n-2], body[n-1])` (R161). -/
def bodyTrailer (body : Bytes) : Half :=
  le16 (body.getD (body.length - 2) 0) (body.getD (body.length - 1) 0)

/-- `CRC.VERIFY(body)` for a body of at least two bytes (R185). -/
def crcVerifies (body : Bytes) : Bool := crc16 (bodyPayload body) == bodyTrailer body

/-- CRC.BLOCK (R183). -/
def execCrcBlock (data : Bytes) (s : State) : Host.Outcome State Fault Refusal := .next (s.setRet (.word (crc16 data)))

/-- CRC.UPDATE (R182). -/
def execCrcUpdate (c : Half) (b : Byte) (s : State) : Host.Outcome State Fault Refusal := .next (s.setRet (.word (crcStep c b)))

/-- CRC.APPEND (R184). -/
def execCrcAppend (data : Bytes) (s : State) : Host.Outcome State Fault Refusal :=
  .next (s.setRet (.bytes (data ++ crcTrailer data)))

/-- CRC.VERIFY (R185): a body shorter than two bytes is `refuse`. -/
def execCrcVerify (body : Bytes) (s : State) : Host.Outcome State Fault Refusal :=
  if body.length < 2 then .refused .verifyTooShort else .next (s.setRet (.bool (crcVerifies body)))

end Sys2Proof.Machine
end

