-- ==== Sys2Proof/Machine/Decoder.lean ====
section
/-! DEFINITION. The frame decoder (41_frame_decoder.md): DEC.PUSH, DEC.RESET, and the cells of DEC.PUSH's dispatch table (R150) as rows
of their own. -/

namespace Sys2Proof.Machine

/-- `None` (R14). -/
def pushNone (s : State) : State := s.setRet .nothing

/-- `Frame(payload)`: returned, and delivered on DEC_OUT (R13, R73). -/
def deliverFrame (payload : Bytes) (s : State) : State := (s.emitDec (.frame payload)).setRet (.frame payload)

/-- `Append(v)` (R157, R160). -/
def decAppend (v : Byte) (s : State) : State :=
  if s.dec.acc.length = s.cfg.maxBody then raiseError .overflow s
  else pushNone (s.setDec { st := .inFrame, acc := s.dec.acc ++ [v] })

/-- `Complete(body)` (R161 to R164), on the state R153 has already put at the baseline (R165). -/
def decComplete (body : Bytes) (s : State) : State :=
  if body.length < 2 then raiseError .truncated s
  else if s.cfg.useCrc && !crcVerifies body then raiseError .crcMismatch s
  else deliverFrame (bodyPayload body) s

/-- `Idle`, 0x7E (R151). -/
def onIdleFlag (s : State) : State := pushNone (s.setDec { st := .inFrame, acc := [] })

/-- `Idle`, any other byte (R152): discarded. -/
def onIdleOther (s : State) : State := pushNone s

/-- `InFrame`, 0x7E, non-empty accumulator (R153). -/
def onFlagNonempty (s : State) : State := decComplete s.dec.acc (s.setDec Dec.reset)

/-- `InFrame`, 0x7E, empty accumulator (R154): absorbed. -/
def onFlagEmpty (s : State) : State := pushNone s

/-- `InFrame`, 0x7D (R155): nothing is appended and nothing overflows yet. -/
def onEsc (s : State) : State := pushNone (s.setDec { s.dec with st := .escaped })

/-- `InFrame`, any other byte (R156). -/
def onData (b : Byte) (s : State) : State := decAppend b s

/-- `Escaped`, any byte but 0x7E (R158), 0x7D included. -/
def onEscaped (b : Byte) (s : State) : State := decAppend (b ^^^ escXor) s

/-- `Escaped`, 0x7E (R159): the flag is consumed and opens nothing. -/
def onEscapedFlag (s : State) : State := raiseError .truncated s

/-- DEC.PUSH's dispatch (R150), total on every state and byte. -/
def push (b : Byte) (s : State) : State :=
  match s.dec.st with
  | .idle => match classify b with
    | .flag => onIdleFlag s
    | .esc | .data => onIdleOther s
  | .inFrame => match classify b with
    | .flag => if s.dec.acc = [] then onFlagEmpty s else onFlagNonempty s
    | .esc => onEsc s
    | .data => onData b s
  | .escaped => match classify b with
    | .flag => onEscapedFlag s
    | .esc | .data => onEscaped b s

/-- DEC.PUSH (R150 to R165). -/
def execDecPush (b : Byte) (s : State) : Host.Outcome State Fault Refusal := .next (push b s)

/-- DEC.RESET (R166). It returns nothing (R110), so `ret` stays (log 11). -/
def execDecReset (s : State) : Host.Outcome State Fault Refusal := .next (s.setDec Dec.reset)

/-- A cell of R150's table runs when `dec.st`, `dec.acc` and the byte select it; otherwise it is no step of the decoder (log 14). -/
def whenSelected (selected : Bool) (s : State) : Host.Outcome State Fault Refusal :=
  if selected then .next s else .refused .cellNotSelected

/-- DEC.PUSH_Idle_FLAG (R151). -/
def execDecIdleFlag (s : State) : Host.Outcome State Fault Refusal :=
  whenSelected (decide (s.dec.st = .idle)) (onIdleFlag s)

/-- DEC.PUSH_Idle_other (R152). -/
def execDecIdleOther (b : Byte) (s : State) : Host.Outcome State Fault Refusal :=
  whenSelected (decide (s.dec.st = .idle ∧ b ≠ flagByte)) (onIdleOther s)

/-- DEC.PUSH_InFrame_FLAG_nonempty (R153). -/
def execDecInFrameFlagNonempty (s : State) : Host.Outcome State Fault Refusal :=
  whenSelected (decide (s.dec.st = .inFrame ∧ s.dec.acc ≠ [])) (onFlagNonempty s)

/-- DEC.PUSH_InFrame_FLAG_empty (R154). -/
def execDecInFrameFlagEmpty (s : State) : Host.Outcome State Fault Refusal :=
  whenSelected (decide (s.dec.st = .inFrame ∧ s.dec.acc = [])) (onFlagEmpty s)

/-- DEC.PUSH_InFrame_ESC (R155). -/
def execDecInFrameEsc (s : State) : Host.Outcome State Fault Refusal :=
  whenSelected (decide (s.dec.st = .inFrame)) (onEsc s)

/-- DEC.PUSH_InFrame_DATA (R156). -/
def execDecInFrameData (b : Byte) (s : State) : Host.Outcome State Fault Refusal :=
  whenSelected (decide (s.dec.st = .inFrame ∧ classify b = .data)) (onData b s)

/-- DEC.PUSH_Escaped_nonFLAG (R158). -/
def execDecEscapedNonFlag (b : Byte) (s : State) : Host.Outcome State Fault Refusal :=
  whenSelected (decide (s.dec.st = .escaped ∧ b ≠ flagByte)) (onEscaped b s)

/-- DEC.PUSH_Escaped_FLAG (R159). -/
def execDecEscapedFlag (s : State) : Host.Outcome State Fault Refusal :=
  whenSelected (decide (s.dec.st = .escaped)) (onEscapedFlag s)

end Sys2Proof.Machine
end

