-- ==== Sys2Proof/Machine/Encoder.lean ====
section
/-! DEFINITION. The frame encoder (40_frame_encoder.md): ENC.FRAME and ENC.ESCAPE. -/

namespace Sys2Proof.Machine

/-- What one body byte is sent as (R93). -/
def escapeByte (b : Byte) : Bytes := if b = flagByte ∨ b = escByte then [escByte, b ^^^ escXor] else [b]

/-- `ENC.ESCAPE(s)` (R133). -/
def escapeBytes : Bytes → Bytes
  | [] => []
  | b :: t => escapeByte b ++ escapeBytes t

/-- The two trailer bytes of a frame (R91): the CRC of the unescaped payload, or `TRAILER_NOCRC`. -/
def frameTrailer (p : Params) (payload : Bytes) (useCrc : Bool) : Bytes :=
  if useCrc then crcTrailer payload else [p.trailer0, p.trailer1]

/-- The frame of a payload (R90, R130). -/
def frameBytes (p : Params) (payload : Bytes) (useCrc : Bool) : Bytes :=
  [flagByte] ++ escapeBytes (payload ++ frameTrailer p payload useCrc) ++ [flagByte]

/-- ENC.FRAME (R130): the frame goes to TX and is returned. Every payload is accepted (R132), and the operand alone chooses the
trailer (R131). -/
def execEncFrame (payload : Bytes) (useCrc : Bool) (s : State) : Host.Outcome State Fault Refusal :=
  .next ((s.emitTx (frameBytes s.cfg payload useCrc)).setRet (.bytes (frameBytes s.cfg payload useCrc)))

/-- ENC.ESCAPE (R133). -/
def execEncEscape (data : Bytes) (s : State) : Host.Outcome State Fault Refusal := .next (s.setRet (.bytes (escapeBytes data)))

end Sys2Proof.Machine
end

