-- ==== Sys2Proof/Machine/Message.lean ====
section
/-! DEFINITION. The message layer (43_message_layer.md): MSG.SEND, MSG.RECV, MSG.TICK, and the rows of the header (30_encoding.md R100)
and of the command codes (R103). -/

namespace Sys2Proof.Machine

/-! ## Sending -/

/-- The frame payload of fragment `i` of `count` (R200, R202). -/
def fragmentPayload (command : Half) (id : Byte) (payload : Bytes) (count i : Nat) : Bytes :=
  headerBytes command id (BitVec.ofNat 16 count) (BitVec.ofNat 16 i) (BitVec.ofNat 16 (fragment payload i).length) ++
  fragment payload i

/-- The frame payloads of a message, in fragment order (R200). -/
def messagePayloads (command : Half) (id : Byte) (payload : Bytes) : List Bytes :=
  (List.range (fragCount payload.length)).map (fragmentPayload command id payload (fragCount payload.length))

/-- What a message puts on TX: one frame per fragment, in order (R200). -/
def messageFrames (p : Params) (command : Half) (id : Byte) (payload : Bytes) : Bytes :=
  ((messagePayloads command id payload).map (fun f => frameBytes p f p.useCrc)).flatten

/-- MSG.SEND (R200); more than 65535 fragments is `refuse` (R201). -/
def sendMessage (command : Half) (id : Byte) (payload : Bytes) (s : State) : Host.Outcome State Fault Refusal :=
  if fragCount payload.length ≤ 65535 then .next ((s.emitTx (messageFrames s.cfg command id payload)).setRet .ok)
  else .refused .messageTooLong

/-! ## Dispatch -/

/-- `Ack` (R221). -/
def handleAck (id : Byte) (data : Bytes) (s : State) : Host.Outcome State Fault Refusal := .next (s.setRet (.ack id data))

/-- `Nak` (R221). -/
def handleNak (id : Byte) (data : Bytes) (s : State) : Host.Outcome State Fault Refusal := .next (s.setRet (.nak id data))

/-- `Ping` (R222): the echo. -/
def handlePing (id : Byte) (data : Bytes) (s : State) : Host.Outcome State Fault Refusal := sendMessage 0x0003 id data s

/-- `Raw` (R223). -/
def handleRaw (id : Byte) (data : Bytes) (s : State) : Host.Outcome State Fault Refusal := .next (s.setRet (.raw id data))

/-- Any other code (R224): reported, no reply. -/
def handleUnknown (s : State) : Host.Outcome State Fault Refusal := .next (raiseError .unknownCommand s)

/-- `Dispatch(command, id, data)` (R220), on all 16 bits of the code. -/
def dispatch (command : Half) (id : Byte) (data : Bytes) (s : State) : Host.Outcome State Fault Refusal :=
  if command = 0x0001 then handleAck id data s
  else if command = 0x0002 then handleNak id data s
  else if command = 0x0003 then handlePing id data s
  else if command = 0x0004 then handleRaw id data s
  else handleUnknown s

/-! ## Receiving -/

/-- A parsed frame payload (R101, R209). -/
structure Header where
  /-- `Command`. -/
  command : Half
  /-- `ID`. -/
  id : Byte
  /-- `FragmentCount`. -/
  count : Half
  /-- `FragmentIndex`. -/
  index : Half
  /-- `Length`. -/
  length : Half
  /-- The bytes after the header. -/
  data : Bytes
deriving DecidableEq, Repr

/-- `parse(p)` (R101): none when fewer than 9 bytes are there (R210). -/
def parseHeader (p : Bytes) : Option Header :=
  match p with
  | c0 :: c1 :: id :: n0 :: n1 :: i0 :: i1 :: l0 :: l1 :: data =>
    some { command := le16 c0 c1, id := id, count := le16 n0 n1, index := le16 i0 i1, length := le16 l0 l1, data := data }
  | _ => none

/-- The validation of R210. -/
def headerValid (h : Header) : Bool :=
  decide (h.length.toNat ≤ fragMax) && decide (h.length.toNat = h.data.length) && decide (h.index.toNat < h.count.toNat)

/-- The context a first fragment allocates (R213). -/
def allocated (h : Header) : Ctx where
  active := true
  id := h.id
  count := h.count
  nextIdx := 0
  cmd := h.command
  buf := []
  idle := 0

/-- A context that has accepted a fragment's data (R217). -/
def extended (c : Ctx) (data : Bytes) : Ctx :=
  { c with buf := c.buf ++ data, nextIdx := c.nextIdx + 1, idle := 0 }

/-- Append, and deliver and release on the final fragment (R217, R218). -/
def storeFragment (data : Bytes) (s : State) : Host.Outcome State Fault Refusal :=
  let c := extended s.ctx data
  if contextComplete c then dispatch c.cmd c.id c.buf (s.setCtx { c with active := false })
  else .next ((s.setCtx c).setRet .nothing)

/-- The fragment of the active context's message (R216, R219): its count and its index must be the expected ones. -/
def matchFragment (h : Header) (s : State) : Host.Outcome State Fault Refusal :=
  if h.count ≠ s.ctx.count ∨ h.index ≠ s.ctx.nextIdx then .next (raiseError .fragmentOutOfOrder s)
  else storeFragment h.data s

/-- A valid fragment (R208 from the one-fragment test on; the order of R332). -/
def acceptFragment (h : Header) (s : State) : Host.Outcome State Fault Refusal :=
  if h.count = 1 then dispatch h.command h.id h.data s
  else if s.ctx.active = false then
    if h.index ≠ 0 then .next (raiseError .fragmentOutOfOrder s)
    else if h.count.toNat * fragMax > s.cfg.maxMessage then .next (raiseError .malformedHeader s)
    else matchFragment h (s.setCtx (allocated h))
  else if h.id ≠ s.ctx.id then .next (raiseError .reassemblyBusy s)
  else matchFragment h s

/-- MSG.RECV's whole step (R208). -/
def receive (p : Bytes) (s : State) : Host.Outcome State Fault Refusal :=
  match parseHeader p with
  | none => .next (raiseError .malformedHeader s)
  | some h => if headerValid h then acceptFragment h s else .next (raiseError .malformedHeader s)

/-! ## Operations -/

/-- MSG.SEND (R200). -/
def execMsgSend (command : Half) (id : Byte) (payload : Bytes) (s : State) : Host.Outcome State Fault Refusal :=
  sendMessage command id payload s

/-- MSG.RECV (R208). -/
def execMsgRecv (p : Bytes) (s : State) : Host.Outcome State Fault Refusal := receive p s

/-- The context after one tick of the idle timer (R226); the release is silent. -/
def ctxTick (p : Params) (c : Ctx) : Ctx :=
  if c.active then
    { c with idle := c.idle + 1, active := decide (c.idle + 1 < p.reasmTimeout) }
  else c

/-- MSG.TICK (R226). It returns nothing (R110), so `ret` stays (log 11). -/
def execMsgTick (s : State) : Host.Outcome State Fault Refusal := .next (s.setCtx (ctxTick s.cfg s.ctx))

/-- MSGHDR (R100, R101): a frame payload of this header and these bytes reaches the message layer (log 16). -/
def execMsgHeader (command : Half) (id : Byte) (count index length : Half) (data : Bytes) (s : State) :
    Host.Outcome State Fault Refusal :=
  receive (headerBytes command id count index length ++ data) s

/-- CMD.ACK (R221). -/
def execCmdAck (id : Byte) (data : Bytes) (s : State) : Host.Outcome State Fault Refusal := dispatch 0x0001 id data s

/-- CMD.NAK (R221). -/
def execCmdNak (id : Byte) (data : Bytes) (s : State) : Host.Outcome State Fault Refusal := dispatch 0x0002 id data s

/-- CMD.PING (R222). -/
def execCmdPing (id : Byte) (data : Bytes) (s : State) : Host.Outcome State Fault Refusal := dispatch 0x0003 id data s

/-- CMD.RAW (R223). -/
def execCmdRaw (id : Byte) (data : Bytes) (s : State) : Host.Outcome State Fault Refusal := dispatch 0x0004 id data s

/-- CMD.UNKNOWN (R224). -/
def execCmdUnknown (command : Half) (id : Byte) (data : Bytes) (s : State) : Host.Outcome State Fault Refusal :=
  dispatch command id data s

end Sys2Proof.Machine
end

