-- ==== Sys2Proof/Machine/Monitor.lean ====
section
/-! DEFINITION. The fault and watchdog monitor (45_monitor.md): WDG.ARM, WDG.FEED, WDG.TICK, HF.ENTER, HF.CAPTURE, HF.LOG, HF.RESET,
SYS.RESET, and a healthy heartbeat. -/

namespace Sys2Proof.Machine

/-- WDG.ARM (R291, R292): once per run, with a timeout above 0 (U15). -/
def execWdgArm (timeout : Nat) (s : State) : Host.Outcome State Fault Refusal :=
  if s.wdg.armed then .refused .alreadyArmed
  else if timeout = 0 then .refused .timeoutZero
  else .next (s.setWdg { armed := true, timeout := timeout, cnt := 0 })

/-- WDG.FEED (R293): before arming it does nothing. -/
def execWdgFeed (s : State) : Host.Outcome State Fault Refusal :=
  .next (if s.wdg.armed then s.setWdg { s.wdg with cnt := 0 } else s)

/-- One tick of the watchdog's time base (R295, R296): the reset fires at the tick that makes the count reach the timeout. The count's
own last step is not seen: the reset puts the count at 0 in the same step. -/
def watchdogTick (s : State) : State :=
  if watchdogExpires s then systemReset .watchdogTimeout s
  else if s.wdg.armed then s.setWdg { s.wdg with cnt := s.wdg.cnt + 1 }
  else s

/-- WDG.TICK (R295). -/
def execWdgTick (s : State) : Host.Outcome State Fault Refusal := .next (watchdogTick s)

/-- The hardfault event with its registers (R305), refused when they are not `N_FSR + 2` values of `FAULT_WORD` bits. -/
def hardFaultEvent (pc lr : Nat) (fsr : List Nat) (s : State) : Host.Outcome State Fault Refusal :=
  if faultRegsOk s.cfg pc lr fsr then .next (enterHardFault { pc := pc, lr := lr, fsr := fsr } s) else .refused .faultRegsWidth

/-- HF.ENTER (R305, R310). -/
def execHfEnter (pc lr : Nat) (fsr : List Nat) (s : State) : Host.Outcome State Fault Refusal := hardFaultEvent pc lr fsr s

/-- HF.CAPTURE (R306). -/
def execHfCapture (s : State) : Host.Outcome State Fault Refusal :=
  if sequencerAt .entered s then
    .next (s.setHf { s.hf with record := { valid := true, regs := s.hf.input }, phase := .captured })
  else .refused .hfOutOfOrder

/-- HF.LOG (R307). A record that is not valid holds no value and is not read (R46). -/
def execHfLog (s : State) : Host.Outcome State Fault Refusal :=
  if sequencerAt .captured s then
    if s.hf.record.valid then .next ((s.emitLog (.hardFault s.hf.record.regs)).setHf { s.hf with phase := .logged })
    else .refused .noFaultRecord
  else .refused .hfOutOfOrder

/-- HF.RESET (R308). -/
def execHfReset (s : State) : Host.Outcome State Fault Refusal :=
  if sequencerAt .logged s then .next (systemReset .hardFault s) else .refused .hfOutOfOrder

/-- SYS.RESET (R312), where R112 lets its cause raise it. That the request is refused elsewhere, and that the requests of the two fault
causes are HF.RESET's and the expiring WDG.TICK's reset presented by name, is the model's choice (log 27). -/
def execSysReset (c : Cause) (s : State) : Host.Outcome State Fault Refusal :=
  if resetRaised c s then .next (systemReset c s) else .refused .resetNotRaised

/-- One round of a healthy heartbeat (R290, R375 step 4): `FEED_PERIOD` ticks, then a feed. -/
def heartbeatRound (p : Params) : List Instr := List.replicate p.feedPeriod .wdgTick ++ [.wdgFeed]

end Sys2Proof.Machine
end

