-- ==== Sys2Proof/Machine/FlashStore.lean ====
section
/-! DEFINITION. The flash store's operations (44_flash.md): FL.SCAN, FL.ERASE, FL.WRITE, FL.READ, FL.BOOT. FL.ERASE and FL.WRITE put SW
inside the operation; their phases (FLC.*, Phases.lean) are steps of their own, between which a reset may fall (R250, R260, log 13). -/

namespace Sys2Proof.Machine

/-- Every FL operation requires that none is in progress (R273). -/
def whenFlIdle (s : State) (k : Host.Outcome State Fault Refusal) : Host.Outcome State Fault Refusal :=
  if flIdle s.fl then k else .refused .flashNotReady

/-- `FL.SCAN = Dirty` (R241) over the configured prefix (R242). -/
def regionDirty (s : State) : Bool := scanDirty s.fl.mem s.cfg.scanLen

/-- SW enters FL.ERASE (R250). -/
def beginErase (s : State) : State := s.setFl { s.fl with op := .erase }

/-- SW enters FL.WRITE with its operands (R258, R262). -/
def beginWrite (offset : Nat) (data : Bytes) (s : State) : State :=
  s.setFl { s.fl with op := .write, offset := offset, data := data, unit := 0, failed := false }

/-- FL.SCAN (R241). -/
def execFlScan (s : State) : Host.Outcome State Fault Refusal :=
  whenFlIdle s (.next (s.setRet (if regionDirty s then .dirty else .clean)))

/-- FL.ERASE (R250): no check of Clean or Dirty (R257). -/
def execFlErase (s : State) : Host.Outcome State Fault Refusal := whenFlIdle s (.next (beginErase s))

/-- FL.WRITE (R258, R259): the operand constraints, then `NotClean`, then the empty write, then the sequence. -/
def execFlWrite (offset : Nat) (data : Bytes) (s : State) : Host.Outcome State Fault Refusal :=
  whenFlIdle s
    (if inRegion s.cfg offset data.length then
      if onUnits s.cfg offset data.length then
        if regionDirty s then .next (raiseError .notClean s)
        else if data = [] then .next (s.setRet .ok)
        else .next (beginWrite offset data s)
      else .refused .notUnitAligned
    else .refused .outsideRegion)

/-- FL.READ (R266). -/
def execFlRead (offset length : Nat) (s : State) : Host.Outcome State Fault Refusal :=
  whenFlIdle s
    (match memRead s.cfg s.fl.mem (s.cfg.flashBase + offset) length with
    | some bytes => .next (s.setRet (.bytes bytes))
    | none => .refused .outsideRegion)

/-- FL.BOOT (R268): FL.ERASE when Dirty, `Ok` when Clean. -/
def execFlBoot (s : State) : Host.Outcome State Fault Refusal :=
  whenFlIdle s (.next (if regionDirty s then beginErase s else s.setRet .ok))

end Sys2Proof.Machine
end

