-- ==== Sys2Proof/Machine/Phases.lean ====
section
/-! DEFINITION. The phases of FL.ERASE and FL.WRITE (30_encoding.md R111; 44_flash.md R251 to R256, R261 to R264), each one atomic step.
A phase outside its precondition is refused (logs 12, 13). -/

namespace Sys2Proof.Machine

/-- A phase runs only under its precondition. -/
def whenEnabled (enabled : Bool) (s : State) : Host.Outcome State Fault Refusal :=
  if enabled then .next s else .refused .phaseNotEnabled

/-- A write of a key to the key port (R35, R251): `FLASH_KEY1`, then `FLASH_KEY2`, which unlocks. Any other write is `refuse` (U11). -/
def writeKey (p : Params) (key : Nat) (f : Fl) : Option Fl :=
  if f.keystep = 0 ∧ key = p.flashKey1 then some { f with keystep := 1 }
  else if f.keystep = 1 ∧ key = p.flashKey2 then some { f with keystep := 0, locked := false }
  else none

/-- The unlock sequence: both keys in order (R251). -/
def unlockSequence (p : Params) (f : Fl) : Option Fl := (writeKey p p.flashKey1 f).bind (writeKey p p.flashKey2)

/-- The phase FLC.UNLOCK ends in: `W_Unlocked` when issued by FL.WRITE (R251). -/
def unlockedPhase (op : FlOp) : FlPhase := if op = .write then .wUnlocked else .eUnlocked

/-- FLC.UNLOCK (R251), the first phase of FL.ERASE and of FL.WRITE: SW is inside one of them (R21). -/
def execFlcUnlock (s : State) : Host.Outcome State Fault Refusal :=
  if s.fl.phase = .ready ∧ s.fl.locked = true ∧ s.fl.op ≠ .none then
    match unlockSequence s.cfg s.fl with
    | some f => .next (s.setFl { f with phase := unlockedPhase f.op })
    | none => .refused .wrongKey
  else .refused .phaseNotEnabled

/-- FLC.SELECT_ERASE (R252). -/
def execFlcSelectErase (s : State) : Host.Outcome State Fault Refusal :=
  whenEnabled (decide (s.fl.phase = .eUnlocked))
    (s.setFl { s.fl with mode := .sectorErase, sector := s.cfg.flashSector, phase := .eSelected })

/-- FLC.START_ERASE (R253). -/
def execFlcStartErase (s : State) : Host.Outcome State Fault Refusal :=
  whenEnabled (decide (s.fl.phase = .eSelected ∧ s.fl.locked = false))
    (s.setFl { startEraseFlags s.fl with phase := .eBusy })

/-- The region after an erase's completion (R254): drawn when it failed, else erased. -/
def erasedMem (s : State) : Memory :=
  if Config.drawFail s.draws then memDraw (Config.drawByte s.draws) s.fl.mem 0 s.cfg.flashSize else memErase s.fl.mem

/-- FLC.COMPLETE_ERASE (R254). The draws are free values (log 7). -/
def execFlcCompleteErase (s : State) : Host.Outcome State Fault Refusal :=
  whenEnabled (decide (s.fl.phase = .eBusy))
    (s.setFl { finishEraseFlags (Config.drawFail s.draws) s.fl with mem := erasedMem s, phase := .eDone }).countDraw

/-- The end of a sequence: lock (R256), then the operation's result (R250, R258). -/
def finishFlash (failure : Option ErrorName) (s : State) : State :=
  match failure with
  | none => (s.setFl (lockedFl s.fl)).setRet .ok
  | some e => raiseError e (s.setFl (lockedFl s.fl))

/-- FLC.LOCK (R256), on success and on failure alike, once the wait before it is over (R75, R255). -/
def execFlcLock (s : State) : Host.Outcome State Fault Refusal :=
  match s.fl.phase with
  | .eDone =>
    if eraseWaitOver s.fl then .next (finishFlash (if s.fl.err then some .eraseFailed else none) s) else .refused .phaseNotEnabled
  | .wVerify => .next (finishFlash (if s.fl.failed then some .programFailed else none) s)
  | .wMode =>
    if s.fl.err && unitWaitOver s.fl then .next (finishFlash (some .programFailed) s) else .refused .phaseNotEnabled
  | .ready | .eUnlocked | .eSelected | .eBusy | .wUnlocked | .wBusy _ => .refused .phaseNotEnabled

/-- FLC.SELECT_PROGRAM (R261). -/
def execFlcSelectProgram (s : State) : Host.Outcome State Fault Refusal :=
  whenEnabled (decide (s.fl.phase = .wUnlocked))
    (s.setFl { selectProgramFlags s.fl with mode := .program, phase := .wMode })

/-- The loop of FL.WRITE issues unit `i` next (R258): the wait for the unit before it is over, none failed, and `i` is the next unit of
the write. -/
def unitIsNext (s : State) (i : Nat) : Bool :=
  unitWaitOver s.fl && decide (i = s.fl.unit) && decide (i < unitCount s) && !s.fl.err

/-- FLC.PROGRAM_UNIT (R262). -/
def execFlcProgramUnit (i : Nat) (s : State) : Host.Outcome State Fault Refusal :=
  whenEnabled (decide (s.fl.phase = .wMode ∧ s.fl.locked = false ∧ s.fl.mode = .program) && unitIsNext s i)
    (s.setFl { startUnitFlags s.fl with phase := .wBusy i })

/-- The region after unit `i`'s completion (R263): the unit drawn when it failed, else programmed. -/
def programmedMem (s : State) (i : Nat) : Memory :=
  if Config.drawFail s.draws then memDraw (Config.drawByte s.draws) s.fl.mem (unitOffset s i) s.cfg.progUnit
  else memProg s.fl.mem (unitOffset s i) (unitData s i)

/-- FLC.COMPLETE_UNIT (R263). The draws are free values (log 7). -/
def execFlcCompleteUnit (i : Nat) (s : State) : Host.Outcome State Fault Refusal :=
  whenEnabled (decide (s.fl.phase = .wBusy i))
    (s.setFl { finishUnitFlags (Config.drawFail s.draws) s.fl with mem := programmedMem s i, phase := .wMode, unit := i + 1 }).countDraw

/-- `MemRead(FLASH_BASE + offset, m) = bytes` (R264). -/
def readBackMatches (s : State) : Bool :=
  memRead s.cfg s.fl.mem (s.cfg.flashBase + s.fl.offset) s.fl.data.length == some s.fl.data

/-- FLC.VERIFY (R264), after every unit completed without `fl.err` and the wait for the last one is over. -/
def execFlcVerify (s : State) : Host.Outcome State Fault Refusal :=
  whenEnabled (decide (s.fl.phase = .wMode ∧ s.fl.err = false ∧ s.fl.unit = unitCount s) && unitWaitOver s.fl)
    ((s.setFl { s.fl with phase := .wVerify, failed := !readBackMatches s }).setRet (.bool (readBackMatches s)))

end Sys2Proof.Machine
end

