-- ==== Sys2Proof/Machine/Errors.lean ====
section
/-! DEFINITION. The rows of the error codes (30_encoding.md R116; 60_exceptions.md R330, R333). An error is raised by an operation, under
its condition, and only operations write the units (10_state.md R21): a row is the step of the operation that its line of R330 names,
on operands that meet the line's condition, and is refused in a state in which none do. The two fault events are R333's. Log 17. -/

namespace Sys2Proof.Machine

/-- ERR.Truncated (R159, R162): DEC.PUSH of a flag that returns it. -/
def execErrTruncated (s : State) : Host.Outcome State Fault Refusal := whenRaised .truncated (.next (push flagByte s))

/-- ERR.Overflow (R160): DEC.PUSH of a body byte that returns it, whichever byte: it is discarded. -/
def execErrOverflow (s : State) : Host.Outcome State Fault Refusal := whenRaised .overflow (.next (push 0x00 s))

/-- ERR.CrcMismatch (R163): DEC.PUSH of a closing flag that returns it. -/
def execErrCrcMismatch (s : State) : Host.Outcome State Fault Refusal := whenRaised .crcMismatch (.next (push flagByte s))

/-- ERR.MalformedHeader (R210): MSG.RECV of a payload too short for a header. -/
def execErrMalformedHeader (s : State) : Host.Outcome State Fault Refusal := whenRaised .malformedHeader (receive [] s)

/-- A fragment that fits no context: of the active context's `ID`, with another count than the context's, and not the first. -/
def straySecondFragment (s : State) : Bytes := headerBytes 0 s.ctx.id (if s.ctx.count = 2 then 3 else 2) 1 0

/-- ERR.FragmentOutOfOrder (R215, R216, R219): MSG.RECV of a fragment that fits no context. -/
def execErrFragmentOutOfOrder (s : State) : Host.Outcome State Fault Refusal :=
  whenRaised .fragmentOutOfOrder (receive (straySecondFragment s) s)

/-- ERR.ReassemblyBusy (R214): MSG.RECV of another message's first fragment. -/
def execErrReassemblyBusy (s : State) : Host.Outcome State Fault Refusal :=
  whenRaised .reassemblyBusy (receive (headerBytes 0 (s.ctx.id + 1) 2 0 0) s)

/-- ERR.UnknownCommand (R224): MSG.RECV of a whole message whose code has no handler. -/
def execErrUnknownCommand (s : State) : Host.Outcome State Fault Refusal :=
  whenRaised .unknownCommand (receive (headerBytes 0 0 1 0 0) s)

/-- ERR.NotClean (R258): FL.WRITE on a Dirty scan, whatever its data. -/
def execErrNotClean (s : State) : Host.Outcome State Fault Refusal := whenRaised .notClean (execFlWrite 0 [] s)

/-- ERR.EraseFailed (R250, R272): the FLC.LOCK that ends a failed FL.ERASE. -/
def execErrEraseFailed (s : State) : Host.Outcome State Fault Refusal := whenRaised .eraseFailed (execFlcLock s)

/-- ERR.ProgramFailed (R258, R264): the FLC.LOCK that ends a failed FL.WRITE. -/
def execErrProgramFailed (s : State) : Host.Outcome State Fault Refusal := whenRaised .programFailed (execFlcLock s)

/-- ERR.HardFault (R305, R333): the fault event with its registers. -/
def execErrHardFault (pc lr : Nat) (fsr : List Nat) (s : State) : Host.Outcome State Fault Refusal := hardFaultEvent pc lr fsr s

/-- ERR.WatchdogTimeout (R295, R333): the WDG.TICK that expires. -/
def execErrWatchdogTimeout (s : State) : Host.Outcome State Fault Refusal :=
  if watchdogExpires s then .next (watchdogTick s) else .refused .resetNotRaised

end Sys2Proof.Machine
end

