-- ==== Sys2Proof/Machine/Wire.lean ====
section
/-! DEFINITION. The rows for bytes and byte pairs on the receive stream (30_encoding.md R92 to R94, R96): each byte is consumed exactly
once, in order, by one decoder step (20_memory.md R61). The sender's side of R93 is `escapeByte`. Log 15. -/

namespace Sys2Proof.Machine

/-- Two bytes in arrival order, with nothing between them (R61). -/
def pushPair (b0 b1 : Byte) (s : State) : State := push b1 (push b0 s)

/-- FLAG (R92): the byte 0x7E arrives. -/
def execWireFlag (s : State) : Host.Outcome State Fault Refusal := .next (push flagByte s)

/-- ESC (R92): the byte 0x7D arrives. -/
def execWireEsc (s : State) : Host.Outcome State Fault Refusal := .next (push escByte s)

/-- DATA (R92): any other byte arrives. -/
def execWireData (b : Byte) (s : State) : Host.Outcome State Fault Refusal := .next (push b s)

/-- ESC_FLAG (R93): the pair 0x7D 0x5E arrives, which stands for the body byte 0x7E. -/
def execPairEscFlag (s : State) : Host.Outcome State Fault Refusal := .next (pushPair escByte 0x5E s)

/-- ESC_ESC (R93): the pair 0x7D 0x5D arrives, which stands for the body byte 0x7D. -/
def execPairEscEsc (s : State) : Host.Outcome State Fault Refusal := .next (pushPair escByte 0x5D s)

/-- ESC_ANY (R94): 0x7D and any other byte `b` arrive, which stand for `b ^ 0x20`. -/
def execPairEscAny (b : Byte) (s : State) : Host.Outcome State Fault Refusal := .next (pushPair escByte b s)

/-- ABORT (R96, R159): 0x7D 0x7E arrives. -/
def execPairAbort (s : State) : Host.Outcome State Fault Refusal := .next (pushPair escByte flagByte s)

end Sys2Proof.Machine
end

