-- ==== Sys2Proof/Machine/Dispatch.lean ====
section
/-! DEFINITION. One arm per constructor of `Instr`: the meaning of each row of spec/opcode_table.json. -/

namespace Sys2Proof.Machine

def exec (i : Instr) (s : State) : Host.Outcome State Fault Refusal :=
  match i with
  | .encFrame payload useCrc => Sys2Proof.Machine.execEncFrame payload useCrc s
  | .encEscape data => Sys2Proof.Machine.execEncEscape data s
  | .decPush b => Sys2Proof.Machine.execDecPush b s
  | .decReset => Sys2Proof.Machine.execDecReset s
  | .crcBlock data => Sys2Proof.Machine.execCrcBlock data s
  | .crcUpdate c b => Sys2Proof.Machine.execCrcUpdate c b s
  | .crcAppend data => Sys2Proof.Machine.execCrcAppend data s
  | .crcVerify body => Sys2Proof.Machine.execCrcVerify body s
  | .msgSend command id payload => Sys2Proof.Machine.execMsgSend command id payload s
  | .msgRecv p => Sys2Proof.Machine.execMsgRecv p s
  | .msgTick => Sys2Proof.Machine.execMsgTick s
  | .flScan => Sys2Proof.Machine.execFlScan s
  | .flErase => Sys2Proof.Machine.execFlErase s
  | .flWrite offset data => Sys2Proof.Machine.execFlWrite offset data s
  | .flRead offset length => Sys2Proof.Machine.execFlRead offset length s
  | .flBoot => Sys2Proof.Machine.execFlBoot s
  | .wdgArm timeout => Sys2Proof.Machine.execWdgArm timeout s
  | .wdgFeed => Sys2Proof.Machine.execWdgFeed s
  | .wdgTick => Sys2Proof.Machine.execWdgTick s
  | .hfEnter pc lr fsr => Sys2Proof.Machine.execHfEnter pc lr fsr s
  | .hfCapture => Sys2Proof.Machine.execHfCapture s
  | .hfLog => Sys2Proof.Machine.execHfLog s
  | .hfReset => Sys2Proof.Machine.execHfReset s
  | .sysReset cause => Sys2Proof.Machine.execSysReset cause s
  | .flcUnlock => Sys2Proof.Machine.execFlcUnlock s
  | .flcSelectErase => Sys2Proof.Machine.execFlcSelectErase s
  | .flcStartErase => Sys2Proof.Machine.execFlcStartErase s
  | .flcCompleteErase => Sys2Proof.Machine.execFlcCompleteErase s
  | .flcLock => Sys2Proof.Machine.execFlcLock s
  | .flcSelectProgram => Sys2Proof.Machine.execFlcSelectProgram s
  | .flcProgramUnit n => Sys2Proof.Machine.execFlcProgramUnit n s
  | .flcCompleteUnit n => Sys2Proof.Machine.execFlcCompleteUnit n s
  | .flcVerify => Sys2Proof.Machine.execFlcVerify s
  | .decIdleFlag => Sys2Proof.Machine.execDecIdleFlag s
  | .decIdleOther b => Sys2Proof.Machine.execDecIdleOther b s
  | .decInFrameFlagNonempty => Sys2Proof.Machine.execDecInFrameFlagNonempty s
  | .decInFrameFlagEmpty => Sys2Proof.Machine.execDecInFrameFlagEmpty s
  | .decInFrameEsc => Sys2Proof.Machine.execDecInFrameEsc s
  | .decInFrameData b => Sys2Proof.Machine.execDecInFrameData b s
  | .decEscapedNonFlag b => Sys2Proof.Machine.execDecEscapedNonFlag b s
  | .decEscapedFlag => Sys2Proof.Machine.execDecEscapedFlag s
  | .wireFlag => Sys2Proof.Machine.execWireFlag s
  | .wireEsc => Sys2Proof.Machine.execWireEsc s
  | .wireData b => Sys2Proof.Machine.execWireData b s
  | .pairEscFlag => Sys2Proof.Machine.execPairEscFlag s
  | .pairEscEsc => Sys2Proof.Machine.execPairEscEsc s
  | .pairEscAny b => Sys2Proof.Machine.execPairEscAny b s
  | .pairAbort => Sys2Proof.Machine.execPairAbort s
  | .msgHeader command id count index length data => Sys2Proof.Machine.execMsgHeader command id count index length data s
  | .cmdAck id data => Sys2Proof.Machine.execCmdAck id data s
  | .cmdNak id data => Sys2Proof.Machine.execCmdNak id data s
  | .cmdPing id data => Sys2Proof.Machine.execCmdPing id data s
  | .cmdRaw id data => Sys2Proof.Machine.execCmdRaw id data s
  | .cmdUnknown command id data => Sys2Proof.Machine.execCmdUnknown command id data s
  | .errTruncated => Sys2Proof.Machine.execErrTruncated s
  | .errOverflow => Sys2Proof.Machine.execErrOverflow s
  | .errCrcMismatch => Sys2Proof.Machine.execErrCrcMismatch s
  | .errMalformedHeader => Sys2Proof.Machine.execErrMalformedHeader s
  | .errFragmentOutOfOrder => Sys2Proof.Machine.execErrFragmentOutOfOrder s
  | .errReassemblyBusy => Sys2Proof.Machine.execErrReassemblyBusy s
  | .errUnknownCommand => Sys2Proof.Machine.execErrUnknownCommand s
  | .errNotClean => Sys2Proof.Machine.execErrNotClean s
  | .errEraseFailed => Sys2Proof.Machine.execErrEraseFailed s
  | .errProgramFailed => Sys2Proof.Machine.execErrProgramFailed s
  | .errHardFault pc lr fsr => Sys2Proof.Machine.execErrHardFault pc lr fsr s
  | .errWatchdogTimeout => Sys2Proof.Machine.execErrWatchdogTimeout s

end Sys2Proof.Machine
end

