-- ==== Sys2Proof/Machine/Schedule.lean ====
section
/-! DEFINITION. Which agent moves next (00_scope.md R10; 20_memory.md R72 to R76; 60_exceptions.md R342). The requests on `port` stand in
the order in which their agents take their steps (log 2). A request of SW waits while SW has no step for it: at exception level
(45_monitor.md R305), inside FL.ERASE or FL.WRITE (R75, R76), and before the boot sequence has come to it (70_reset_and_hazards.md R375).
While it waits, and when nothing is presented, the block moves by itself, SW's boot sequence and heartbeat included (log 4). -/

namespace Sys2Proof.Machine

/-- The agents that are tasks of `SW` or act only on its behalf (R10, R72, R338). The others are asynchronous to it. -/
def isSoftware : Agent → Bool
  | .sw | .swTx | .rxsrc | .dec | .msg => true
  | .flc | .wdg | .cpu | .hf | .env => false

/-- The phases SW itself takes inside a flash operation (R250, R258), the failing ends of a sequence among them (log 17); the two
completions are the controller's (R254, R263). -/
def isSoftwarePhase (i : Instr) : Bool :=
  match i with
  | .flcUnlock | .flcSelectErase | .flcStartErase | .flcLock | .flcSelectProgram | .flcProgramUnit _ | .flcVerify
  | .errEraseFailed | .errProgramFailed => true
  | _ => false

/-- SW has no step at exception level (R305), and none outside the flash operation it is in (R75, R76). -/
def softwareHeld (s : State) : Bool := atException s || !flIdle s.fl

/-- What SW issues at each place of its boot sequence (R375): the arming; then any reads of the stored record, and FL.BOOT; then what
its tasks issue. -/
def bootAdmits (p : Params) (b : BootStep) (i : Instr) : Bool :=
  match b, i with
  | .arm, .wdgArm n => n == p.wdgTimeout
  | .arm, _ => false
  | .store, .flRead _ _ => true
  | .store, .flBoot => true
  | .store, _ => false
  | .tasks, _ => true

/-- The place of the boot sequence after SW has issued `i`. -/
def bootAfter (b : BootStep) (i : Instr) : BootStep :=
  match b, i with
  | .arm, .wdgArm _ => .store
  | .store, .flBoot => .tasks
  | b, _ => b

/-- The request must wait. -/
def waits (i : Instr) (s : State) : Bool :=
  (isSoftware (issuerOf i) && (softwareHeld s || !bootAdmits s.cfg s.boot i)) || (isSoftwarePhase i && atException s)

/-- What is fetched from the port. -/
inductive Fetched where
  /-- Nothing is presented, or what is presented must wait: the block moves by itself. -/
  | wait
  /-- The request is outside the admitted subset. -/
  | refuse (r : Refusal)
  /-- The instruction to run, and the state with its request consumed. -/
  | run (i : Instr) (s : State)
deriving Repr

/-- Take the first request of the port: decode it (R112), hold it against its issuer (R112, R380, U19, U21), and see whether it may
move. -/
def fetch (s : State) : Fetched :=
  match s.port with
  | [] => .wait
  | r :: rest =>
    match decode r with
    | .error e => .refuse (.undecodable e)
    | .ok i =>
      if mayIssue r.agent i then (if waits i s then .wait else .run i ((s.setPort rest).setBoot (bootAfter s.boot i)))
      else .refuse .wrongIssuer

/-- The hardfault sequencer's next step (R309: each enabled as soon as the one before has happened). -/
def sequencerStep (s : State) : Host.Outcome State Fault Refusal :=
  match s.hf.phase with
  | .idle => .next s
  | .entered => execHfCapture s
  | .captured => execHfLog s
  | .logged => execHfReset s

/-- While the controller is busy: its completion, or a tick of time. How long it takes is the environment's (R395, U10; log 6). -/
def busyStep (complete : State → Host.Outcome State Fault Refusal) (s : State) : Host.Outcome State Fault Refusal :=
  if Config.drawReady s.draws then complete s else execWdgTick s.countDraw

/-- `FEED_PERIOD` ticks have passed since the last feed (R290, R375 step 4). -/
def feedDue (s : State) : Bool := s.wdg.armed && decide (0 < s.wdg.cnt) && decide (s.cfg.feedPeriod ≤ s.wdg.cnt)

/-- SW with nothing held and nothing presented: the next operation of its boot sequence (R375), and, once its tasks run, the heartbeat
at the scheduler's idle point (R290), or time passes (log 5). -/
def idleStep (s : State) : Host.Outcome State Fault Refusal :=
  match s.boot with
  | .arm => execWdgArm s.cfg.wdgTimeout (s.setBoot .store)
  | .store => execFlBoot (s.setBoot .tasks)
  | .tasks => if feedDue s then execWdgFeed s else execWdgTick s

/-- The next phase of FL.ERASE or FL.WRITE (R250, R258); with no operation in progress, SW's own next step. Where a wait is not over SW
holds (R75, R255) and time passes. -/
def flashStep (s : State) : Host.Outcome State Fault Refusal :=
  match s.fl.phase with
  | .ready => if s.fl.op = .none then idleStep s else execFlcUnlock s
  | .eUnlocked => execFlcSelectErase s
  | .eSelected => execFlcStartErase s
  | .eBusy => busyStep execFlcCompleteErase s
  | .eDone => if eraseWaitOver s.fl then execFlcLock s else execWdgTick s
  | .wUnlocked => execFlcSelectProgram s
  | .wMode =>
    if unitWaitOver s.fl = false then execWdgTick s
    else if s.fl.err then execFlcLock s
    else if s.fl.unit < unitCount s then execFlcProgramUnit s.fl.unit s
    else execFlcVerify s
  | .wBusy i => busyStep (execFlcCompleteUnit i) s
  | .wVerify => execFlcLock s

/-- What the block does by itself. A stuck sequencer leaves only the watchdog; unarmed, the block is stuck for good (R310). -/
def ownStep (s : State) : Host.Outcome State Fault Refusal :=
  if atException s then
    if s.hf.stuck then (if s.wdg.armed then execWdgTick s else .fault .stuck)
    else sequencerStep s
  else flashStep s

end Sys2Proof.Machine
end

