-- ==== Sys2Proof/Machine/Step.lean ====
section
/-! DEFINITION. One step of the block: the request the port presents, or, where that waits or nothing is presented, the block's own
step. There is no program counter and no fetch from memory (00_scope.md R9); the port stands for both (log 2). -/

namespace Sys2Proof.Machine

/-- One step. -/
def step (s : State) : Host.Outcome State Fault Refusal :=
  match fetch s with
  | .wait => ownStep s
  | .refuse r => .refused r
  | .run i t => exec i t

/-- `s` with the instruction of a table word as the first request on its port, presented by its issuer, every operand zero, and SW's
tasks running, so that a request of theirs does not wait for the boot sequence (log 2). -/
def State.withFetchWord (s : State) (nbits w : Nat) : State :=
  (s.setPort (tableRequest s.cfg.nFsr nbits w :: s.port)).setBoot .tasks

end Sys2Proof.Machine
end

