-- ==== Sys2Proof/Safety.lean ====
section
/-! DEFINITION. The terms the statements use: a run of operations, and what holds of a state a run can reach, unit by unit
(10_state.md R22 to R47). -/

namespace Sys2Proof.Machine

/-- Run operations one after the other, stopping at the first that does not answer a next state. -/
def runInstrs : List Instr → State → Host.Outcome State Fault Refusal
  | [], s => .next s
  | i :: rest, s =>
    match exec i s with
    | .next t => runInstrs rest t
    | .fault f => .fault f
    | .refused r => .refused r

/-- The state a frame error leaves (R167, R330): the decoder's baseline, the error returned, delivered and logged, nothing else. -/
def frameErrorState (e : ErrorName) (s : State) : State :=
  { s with dec := { st := .idle, acc := [] }, ret := .err e, decOut := s.decOut ++ [.err e], log := s.log ++ [.error e] }

/-- The state an error leaves that drops the request and changes no unit (R330 "unchanged"). -/
def droppedState (e : ErrorName) (s : State) : State := { s with ret := .err e, log := s.log ++ [.error e] }

/-- The units of 10_state.md R20, and the stateless encoder and CRC engine. -/
inductive UnitName where
  | enc
  | dec
  | crc
  | msg
  | fl
  | wdg
  | hf
  | sys
deriving DecidableEq, Repr

/-- The unit a row belongs to (R21, R110). -/
def unitOf : Instr → UnitName
  | .encFrame _ _ | .encEscape _ => .enc
  | .decPush _ | .decReset => .dec
  | .crcBlock _ | .crcUpdate _ _ | .crcAppend _ | .crcVerify _ => .crc
  | .msgSend _ _ _ | .msgRecv _ | .msgTick => .msg
  | .flScan | .flErase | .flWrite _ _ | .flRead _ _ | .flBoot => .fl
  | .wdgArm _ | .wdgFeed | .wdgTick => .wdg
  | .hfEnter _ _ _ | .hfCapture | .hfLog | .hfReset => .hf
  | .sysReset _ => .sys
  | .flcUnlock | .flcSelectErase | .flcStartErase | .flcCompleteErase | .flcLock | .flcSelectProgram | .flcProgramUnit _
  | .flcCompleteUnit _ | .flcVerify => .fl
  | .decIdleFlag | .decIdleOther _ | .decInFrameFlagNonempty | .decInFrameFlagEmpty | .decInFrameEsc | .decInFrameData _
  | .decEscapedNonFlag _ | .decEscapedFlag => .dec
  | .wireFlag | .wireEsc | .wireData _ | .pairEscFlag | .pairEscEsc | .pairEscAny _ | .pairAbort => .dec
  | .msgHeader _ _ _ _ _ _ | .cmdAck _ _ | .cmdNak _ _ | .cmdPing _ _ | .cmdRaw _ _ | .cmdUnknown _ _ _ => .msg
  | .errTruncated | .errOverflow | .errCrcMismatch => .dec
  | .errMalformedHeader | .errFragmentOutOfOrder | .errReassemblyBusy | .errUnknownCommand => .msg
  | .errNotClean | .errEraseFailed | .errProgramFailed => .fl
  | .errHardFault _ _ _ => .hf
  | .errWatchdogTimeout => .wdg

/-- The decoder (R22, R23): the accumulator never exceeds `MAX_BODY`, and is empty in `Idle`. -/
def DecSafe (s : State) : Prop :=
  s.dec.acc.length ≤ s.cfg.maxBody ∧ (s.dec.st = .idle → s.dec.acc = [])

/-- The reassembly context while active (R29, R30, R225): at least two fragments expected, fewer received than expected, no more than
256 bytes of each, and room for the whole message. -/
def CtxSafe (s : State) : Prop :=
  s.ctx.active = true →
    2 ≤ s.ctx.count.toNat ∧ s.ctx.nextIdx.toNat < s.ctx.count.toNat ∧
    s.ctx.buf.length ≤ fragMax * s.ctx.nextIdx.toNat ∧ s.ctx.count.toNat * fragMax ≤ s.cfg.maxMessage

/-- The region's memory: canonical, and nothing listed beyond `FLASH_SIZE` (R33). -/
def MemSafe (s : State) : Prop := s.fl.mem.wf ∧ ∀ c ∈ s.fl.mem, c.1 < s.cfg.flashSize

/-- The control fields and flags each phase stands for (R250 to R264): locked only in `Ready`; the mode the sequence selected; busy
exactly while an erase or a unit is in progress. -/
def phaseFields (p : Params) (f : Fl) : Prop :=
  match f.phase with
  | .ready => f.locked = true ∧ f.mode = .none ∧ f.busy = false ∧ f.complete = false ∧ f.err = false
  | .eUnlocked => f.locked = false ∧ f.mode = .none ∧ f.busy = false ∧ f.op = .erase
  | .eSelected => f.locked = false ∧ f.mode = .sectorErase ∧ f.sector = p.flashSector ∧ f.busy = false ∧ f.op = .erase
  | .eBusy =>
    f.locked = false ∧ f.mode = .sectorErase ∧ f.sector = p.flashSector ∧ f.busy = true ∧ f.complete = false ∧ f.err = false ∧
    f.op = .erase
  | .eDone =>
    f.locked = false ∧ f.mode = .sectorErase ∧ f.sector = p.flashSector ∧ f.busy = false ∧ f.complete = true ∧ f.op = .erase
  | .wUnlocked => f.locked = false ∧ f.mode = .none ∧ f.busy = false ∧ f.err = false ∧ f.unit = 0 ∧ f.op = .write
  | .wMode => f.locked = false ∧ f.mode = .program ∧ f.busy = false ∧ f.op = .write
  | .wBusy i =>
    f.locked = false ∧ f.mode = .program ∧ f.busy = true ∧ f.err = false ∧ f.op = .write ∧ f.unit = i ∧
    i < f.data.length / p.progUnit
  | .wVerify => f.locked = false ∧ f.mode = .program ∧ f.busy = false ∧ f.err = false ∧ f.op = .write

/-- The write in progress has operands R259 admits, and has not yet begun while the phase is `Ready`. -/
def writeOperands (p : Params) (f : Fl) : Prop :=
  f.op = .write →
    f.offset + f.data.length ≤ p.flashSize ∧ f.offset % p.progUnit = 0 ∧ f.data.length % p.progUnit = 0 ∧
    (f.phase = .ready → f.unit = 0)

/-- The flash unit: memory, phase, key port (R35: no key is half written between two steps) and the write's operands. -/
def FlSafe (s : State) : Prop :=
  MemSafe s ∧ phaseFields s.cfg s.fl ∧ s.fl.keystep = 0 ∧ writeOperands s.cfg s.fl

/-- How far a write has come when the scan covers the region (R258, R262, R271): without a controller error, the units done hold their
data and the rest of the region is erased. -/
def WriteProgress (s : State) : Prop :=
  FlSafe s ∧
  (s.cfg.scanLen = s.cfg.flashSize → s.fl.op = .write → s.fl.err = false →
    ∀ a, a < s.cfg.flashSize →
      memGet s.fl.mem a =
        if s.fl.offset ≤ a ∧ a < s.fl.offset + s.fl.unit * s.cfg.progUnit then s.fl.data.getD (a - s.fl.offset) 0 else erasedByte)

/-- The watchdog (R43, R292, R296, R375): while armed it has counted fewer ticks than its timeout; while not armed it has counted none;
and it is not armed exactly while SW has its arming still to issue. -/
def WdgSafe (s : State) : Prop :=
  (s.wdg.armed = true → s.wdg.cnt < s.wdg.timeout) ∧ (s.wdg.armed = false → s.wdg.cnt = 0) ∧
  (s.boot = .arm ↔ s.wdg.armed = false)

/-- The hardfault sequencer (R45, R46, R306): the latched values have the build's shape; from the capture on the record is valid and
holds them; the sequencer is stuck only inside a sequence; a valid record has the build's shape. -/
def HfSafe (s : State) : Prop :=
  (s.hf.phase ≠ .idle → faultRegsOk s.cfg s.hf.input.pc s.hf.input.lr s.hf.input.fsr = true) ∧
  (s.hf.phase = .captured ∨ s.hf.phase = .logged → s.hf.record.valid = true ∧ s.hf.record.regs = s.hf.input) ∧
  (s.hf.stuck = true → s.hf.phase ≠ .idle) ∧
  (s.hf.record.valid = true →
    faultRegsOk s.cfg s.hf.record.regs.pc s.hf.record.regs.lr s.hf.record.regs.fsr = true)

end Sys2Proof.Machine
end

