-- ==== Sys2Proof/Certificates/Slice0/Obligations.lean ====
section
/-! DEFINITION. The statements for the provers: what the rules of spec/ say the block does. Where a next state is written as a record
update of the state before, every field the update does not name is unchanged: that is the statement's frame, memory included. -/

open Sys2Proof Sys2Proof.Machine

/-! ## Encoding and the port -/

/-- Every well-formed instruction is read back from the request that presents it (30_encoding.md R92 to R94, R100, R103, R110, R111,
R116). The select codes and the error codes are the spec's own decisions D1 and D10. The form of a request, and that a phase and a cell are
handed over by name, are the model's choice (logs 2, 14). -/
def Obligations.DecodeReadsBackWhatEncodeWrites : Prop :=
  ∀ (p : Params) (i : Instr), i.wellFormed p = true → decode (encode i) = .ok i

/-- The other direction: an instruction has one request, so no two codes or operand lists stand for one instruction. How a request is
written down (its space, its code bytes, its operand list, a phase or a cell by name) is the model's choice (log 2); the select codes and
the error codes are the spec's own decisions D1 and D10. -/
def Obligations.EachInstructionHasOneRequest : Prop :=
  ∀ (r : Request) (i : Instr), decode r = .ok i → r.agent = issuerOf i → encode i = r

/-- Words written out from the tables of 30_encoding.md: the select codes 0x20, 0x31, 0x52 (R110) and the error code 0x32 (R116) are the
spec's own decisions D1 and D10; the wire pair is R93's, the command code R103's, the header R100's. The record a word is put in (the agent,
which the decoder does not read, the space, the code bytes, the typed operand list) is the model's choice (log 2). -/
def Obligations.SpecWordsDecode : Prop :=
  decode { agent := .rxsrc, space := .op, code := [0x20], operands := [.u8 0x7E] } = .ok (.decPush 0x7E) ∧
  decode { agent := .sw, space := .op, code := [0x31], operands := [.u16 0xFFFF, .u8 0xAA] } = .ok (.crcUpdate 0xFFFF 0xAA) ∧
  decode { agent := .sw, space := .op, code := [0x52], operands := [.nat 0, .bytes [0x12, 0x34]] } = .ok (.flWrite 0 [0x12, 0x34]) ∧
  decode { agent := .rxsrc, space := .wire, code := [0x7D, 0x5E], operands := [] } = .ok .pairEscFlag ∧
  decode { agent := .msg, space := .command, code := [0x03, 0x00], operands := [.u8 7, .bytes [0xAA]] } = .ok (.cmdPing 7 [0xAA]) ∧
  decode { agent := .msg, space := .header, code := [0x04, 0x00, 0x21, 0x03, 0x00, 0x02, 0x00, 0x58, 0x00], operands := [.bytes []] } =
    .ok (.msgHeader 0x0004 0x21 3 2 88 []) ∧
  decode { agent := .sw, space := .error, code := [0x32], operands := [] } = .ok .errEraseFailed

/-- R112 (decision D1): a reserved select code is refused, whoever presents it; an instruction presented by an agent that may not issue it
is refused; and the issuers of the operations. Which agent presents SYS.RESET for which cause, that a cell, a step of DEC.PUSH, is RXSRC's,
the issuers of the other rows that are no operation, and what SW's transmit path may present (no DEC.RESET, R380), are the model's reading
(log 21). -/
def Obligations.ReservedCodesAndWrongIssuersAreRefused : Prop :=
  (∀ (s : State) (a : Agent) (c : Byte) (ops : List Operand) (rest : List Request),
    c ∉ ([0x10, 0x11, 0x20, 0x21, 0x30, 0x31, 0x32, 0x33, 0x40, 0x41, 0x42, 0x50, 0x51, 0x52, 0x53, 0x54, 0x60, 0x61, 0x62,
      0x70, 0x71, 0x72, 0x73, 0x7F] : List Byte) →
    s.port = { agent := a, space := .op, code := [c], operands := ops } :: rest →
    step s = .refused (.undecodable .reservedSelect)) ∧
  (∀ (s : State) (r : Request) (rest : List Request) (i : Instr),
    s.port = r :: rest → decode r = .ok i → mayIssue r.agent i = false → step s = .refused .wrongIssuer) ∧
  (∀ (a : Agent) (i : Instr), mayIssue a i = true ↔ a = issuerOf i ∨ a = .swTx ∧ isTransmit i = true) ∧
  mayIssue .swTx .decReset = false ∧
  (∀ (b : Byte), issuerOf (.decPush b) = .rxsrc) ∧ issuerOf .wdgTick = .wdg ∧
  (∀ (b : Byte),
    ∀ i ∈ ([.decIdleFlag, .decIdleOther b, .decInFrameFlagNonempty, .decInFrameFlagEmpty, .decInFrameEsc, .decInFrameData b,
      .decEscapedNonFlag b, .decEscapedFlag] : List Instr), issuerOf i = .rxsrc) ∧
  (∀ (pc lr : Nat) (fsr : List Nat), issuerOf (.hfEnter pc lr fsr) = .cpu) ∧
  issuerOf .hfCapture = .hf ∧ issuerOf .hfLog = .hf ∧ issuerOf .hfReset = .hf ∧
  issuerOf (.sysReset .hardFault) = .hf ∧ issuerOf (.sysReset .watchdogTimeout) = .wdg ∧
  issuerOf (.sysReset .external) = .env ∧ issuerOf (.sysReset .powerOn) = .env ∧
  (∀ (s p : Bytes) (u : Bool) (c : Half) (id : Byte) (o n : Nat),
    ∀ i ∈ ([.encFrame p u, .encEscape s, .decReset, .crcBlock s, .crcUpdate c id, .crcAppend s, .crcVerify s, .msgSend c id p,
      .msgRecv p, .msgTick, .flScan, .flErase, .flWrite o s, .flRead o n, .flBoot, .wdgArm n, .wdgFeed] : List Instr),
      issuerOf i = .sw)

/-- A step runs the decoded request, on the state with the request consumed and SW's place in the boot sequence moved; a request that
waits stays, and the block moves by itself, as it does when nothing is presented. By itself it takes: at exception level, the sequencer's
next step (R309); in a flash operation, the next phase of R250 or R258, or a tick while the controller is busy or the flag the wait reads
is not there yet; else what SW does unasked: arming, FL.BOOT, a heartbeat feed when one is due, or a tick. The port, which request waits
and what the block does by itself are the model's (logs 2, 4, 5, 6, 20), and so are the fields that say which flash operation SW is inside and
how far it has come (logs 12, 13). -/
def Obligations.StepRunsTheDecodedRequest : Prop :=
  ∀ s : State,
    (∀ (r : Request) (rest : List Request) (i : Instr), s.port = r :: rest → decode r = .ok i → mayIssue r.agent i = true →
      (waits i s = false → step s = exec i { s with port := rest, boot := bootAfter s.boot i }) ∧
      (waits i s = true → step s = ownStep s)) ∧
    (s.port = [] → step s = ownStep s) ∧
    (∀ i : Instr, waits i s = true ↔
      isSoftware (issuerOf i) = true ∧
        (s.hf.phase ≠ .idle ∨ s.fl.phase ≠ .ready ∨ s.fl.op ≠ .none ∨ bootAdmits s.cfg s.boot i = false) ∨
      isSoftwarePhase i = true ∧ s.hf.phase ≠ .idle) ∧
    (s.hf.stuck = false →
      (s.hf.phase = .entered → ownStep s = exec .hfCapture s) ∧ (s.hf.phase = .captured → ownStep s = exec .hfLog s) ∧
      (s.hf.phase = .logged → ownStep s = exec .hfReset s)) ∧
    (s.hf.phase = .idle →
      (s.fl.phase = .ready → s.fl.op ≠ .none → ownStep s = exec .flcUnlock s) ∧
      (s.fl.phase = .eUnlocked → ownStep s = exec .flcSelectErase s) ∧
      (s.fl.phase = .eSelected → ownStep s = exec .flcStartErase s) ∧
      (s.fl.phase = .eBusy →
        ownStep s = if Config.drawReady s.draws = true then exec .flcCompleteErase s
          else exec .wdgTick { s with draws := s.draws + 1 }) ∧
      (s.fl.phase = .eDone → ownStep s = if s.fl.complete = true then exec .flcLock s else exec .wdgTick s) ∧
      (s.fl.phase = .wUnlocked → ownStep s = exec .flcSelectProgram s) ∧
      (s.fl.phase = .wMode →
        ownStep s = if s.fl.busy = true then exec .wdgTick s
          else if s.fl.err = true then exec .flcLock s
          else if s.fl.unit < s.fl.data.length / s.cfg.progUnit then exec (.flcProgramUnit s.fl.unit) s
          else exec .flcVerify s) ∧
      (∀ k, s.fl.phase = .wBusy k →
        ownStep s = if Config.drawReady s.draws = true then exec (.flcCompleteUnit k) s
          else exec .wdgTick { s with draws := s.draws + 1 }) ∧
      (s.fl.phase = .wVerify → ownStep s = exec .flcLock s) ∧
      (s.fl.phase = .ready → s.fl.op = .none →
        (s.boot = .arm → ownStep s = exec (.wdgArm s.cfg.wdgTimeout) { s with boot := .store }) ∧
        (s.boot = .store → ownStep s = exec .flBoot { s with boot := .tasks }) ∧
        (s.boot = .tasks →
          ownStep s = if s.wdg.armed = true ∧ 0 < s.wdg.cnt ∧ s.cfg.feedPeriod ≤ s.wdg.cnt then exec .wdgFeed s
            else exec .wdgTick s)))

/-- R75, R76, R305, R342 (derived, decisions D30, D34, D36): at exception level, and inside FL.ERASE or FL.WRITE, no operation of SW or of
a task runs, and at exception level no phase that SW takes: the flash sequence stays cut where it was. The request stays on the port, and
unless the step is a reset it changes nothing of the decoder, the message layer or TX, nor SW's place in the boot sequence, and at
exception level nothing of the flash unit. That the request waits, and that RXSRC's and MSG's wait with SW's, is the model's choice
(logs 2, 4). -/
def Obligations.SoftwareHasNoStepWhileItMustWait : Prop :=
  ∀ (s t : State) (r : Request) (rest : List Request) (i : Instr),
    s.port = r :: rest → decode r = .ok i → mayIssue r.agent i = true →
    (isSoftware (issuerOf i) = true ∧ (s.hf.phase ≠ .idle ∨ s.fl.phase ≠ .ready ∨ s.fl.op ≠ .none) ∨
      isSoftwarePhase i = true ∧ s.hf.phase ≠ .idle) →
    step s = .next t → t.resets = s.resets →
    t.port = s.port ∧ t.boot = s.boot ∧ t.dec = s.dec ∧ t.ctx = s.ctx ∧ t.tx = s.tx ∧ t.decOut = s.decOut ∧
    (s.hf.phase ≠ .idle → t.fl = s.fl)

/-! ## The frame decoder -/

/-- R151, R154, R155, R159: a flag or an escape byte that ends no candidate. A flag in `Idle` opens a frame; flags in a row are absorbed;
0x7D in `InFrame` begins an escape, with the accumulator as it is, full or not; a flag in `Escaped` is `Truncated` and opens nothing. That
the error is delivered on DEC_OUT is the model's reading (log 10). -/
def Obligations.ControlBytesMoveTheDecoder : Prop :=
  ∀ s : State,
    (s.dec.st = .idle → exec (.decPush 0x7E) s = .next { s with dec := { st := .inFrame, acc := [] }, ret := .nothing }) ∧
    (s.dec.st = .inFrame → s.dec.acc = [] → exec (.decPush 0x7E) s = .next { s with ret := .nothing }) ∧
    (s.dec.st = .inFrame →
      exec (.decPush 0x7D) s = .next { s with dec := { st := .escaped, acc := s.dec.acc }, ret := .nothing }) ∧
    (s.dec.st = .escaped → exec (.decPush 0x7E) s = .next (frameErrorState .truncated s))

/-- R156, R157, R158, R160: a body byte, as it is in `InFrame` and XORed with 0x20 in `Escaped` (0x7D included), is appended; when the
accumulator holds `MAX_BODY` bytes, counted after unescaping and with the trailer, it is `Overflow` and dropped. Which append overflows is
the spec's own decision D7; that the error is delivered on DEC_OUT is the model's reading (log 10). -/
def Obligations.DecPushAppendsOrOverflows : Prop :=
  ∀ (s : State) (b v : Byte),
    (s.dec.st = .inFrame ∧ b ≠ 0x7E ∧ b ≠ 0x7D ∧ v = b ∨ s.dec.st = .escaped ∧ b ≠ 0x7E ∧ v = b ^^^ 0x20) →
    exec (.decPush b) s =
      .next (if s.dec.acc.length = s.cfg.maxBody then frameErrorState .overflow s
        else { s with dec := { st := .inFrame, acc := s.dec.acc ++ [v] }, ret := .nothing })

/-- R152, R166, which rest on the spec's decisions D4 and D5: a byte other than a flag in `Idle`, 0x7D included, is discarded; DEC.RESET
leaves the reset value and returns nothing. -/
def Obligations.IdleDiscardsAndDecResetClears : Prop :=
  ∀ (s : State) (b : Byte),
    (s.dec.st = .idle → b ≠ 0x7E → exec (.decPush b) s = .next { s with ret := .nothing }) ∧
    exec .decReset s = .next { s with dec := { st := .idle, acc := [] } }

/-- R153, R161 to R165: the closing flag completes the candidate. One byte is `Truncated`; with CRC on a wrong trailer is
`CrcMismatch`; otherwise the payload without its trailer is delivered. Afterwards the decoder is in `Idle` with an empty
accumulator. `Truncated` for the one byte and the state afterwards are the spec's own decisions D6 and D5; that an error is delivered on
DEC_OUT is the model's reading (log 10). -/
def Obligations.ClosingFlagCompletesTheCandidate : Prop :=
  ∀ (s : State) (payload : Bytes) (t0 t1 : Byte), s.dec.st = .inFrame →
    (s.dec.acc.length = 1 → exec (.decPush 0x7E) s = .next (frameErrorState .truncated s)) ∧
    (s.dec.acc = payload ++ [t0, t1] →
      exec (.decPush 0x7E) s =
        .next (if s.cfg.useCrc = true ∧ crc16 payload ≠ le16 t0 t1 then frameErrorState .crcMismatch s
          else { s with dec := { st := .idle, acc := [] }, ret := .frame payload, decOut := s.decOut ++ [.frame payload] }))

/-- R150: each cell of the dispatch table is DEC.PUSH's step where `dec.st`, `dec.acc` and the byte select it. That a cell is a row of its
own, refused where any of the three does not select it, is the model's choice (log 14). -/
def Obligations.CellsAreDecPushWhereSelected : Prop :=
  ∀ (s : State) (b : Byte),
    (s.dec.st = .idle → ∃ t, exec (.decPush 0x7E) s = .next t ∧ exec .decIdleFlag s = .next t) ∧
    (s.dec.st = .idle → b ≠ 0x7E → ∃ t, exec (.decPush b) s = .next t ∧ exec (.decIdleOther b) s = .next t) ∧
    (s.dec.st = .inFrame → s.dec.acc ≠ [] →
      ∃ t, exec (.decPush 0x7E) s = .next t ∧ exec .decInFrameFlagNonempty s = .next t) ∧
    (s.dec.st = .inFrame → s.dec.acc = [] → ∃ t, exec (.decPush 0x7E) s = .next t ∧ exec .decInFrameFlagEmpty s = .next t) ∧
    (s.dec.st = .inFrame → ∃ t, exec (.decPush 0x7D) s = .next t ∧ exec .decInFrameEsc s = .next t) ∧
    (s.dec.st = .inFrame → b ≠ 0x7E → b ≠ 0x7D → ∃ t, exec (.decPush b) s = .next t ∧ exec (.decInFrameData b) s = .next t) ∧
    (s.dec.st = .escaped → b ≠ 0x7E → ∃ t, exec (.decPush b) s = .next t ∧ exec (.decEscapedNonFlag b) s = .next t) ∧
    (s.dec.st = .escaped → ∃ t, exec (.decPush 0x7E) s = .next t ∧ exec .decEscapedFlag s = .next t) ∧
    (s.dec.st ≠ .idle →
      exec .decIdleFlag s = .refused .cellNotSelected ∧ exec (.decIdleOther b) s = .refused .cellNotSelected) ∧
    (s.dec.st ≠ .inFrame →
      exec .decInFrameFlagNonempty s = .refused .cellNotSelected ∧ exec .decInFrameFlagEmpty s = .refused .cellNotSelected ∧
      exec .decInFrameEsc s = .refused .cellNotSelected ∧ exec (.decInFrameData b) s = .refused .cellNotSelected) ∧
    (s.dec.st ≠ .escaped →
      exec (.decEscapedNonFlag b) s = .refused .cellNotSelected ∧ exec .decEscapedFlag s = .refused .cellNotSelected) ∧
    (s.dec.acc = [] → exec .decInFrameFlagNonempty s = .refused .cellNotSelected) ∧
    (s.dec.acc ≠ [] → exec .decInFrameFlagEmpty s = .refused .cellNotSelected) ∧
    exec (.decIdleOther 0x7E) s = .refused .cellNotSelected ∧ exec (.decInFrameData 0x7E) s = .refused .cellNotSelected ∧
    exec (.decInFrameData 0x7D) s = .refused .cellNotSelected ∧ exec (.decEscapedNonFlag 0x7E) s = .refused .cellNotSelected

/-- R61, R92: a byte that arrives is consumed by one decoder step, a pair by two in order. That the rows of the table mean the receive
side is the model's choice (log 15). -/
def Obligations.WireBytesAreDecoderSteps : Prop :=
  ∀ (s : State) (b : Byte),
    (∃ t, exec (.decPush 0x7E) s = .next t ∧ exec .wireFlag s = .next t) ∧
    (∃ t, exec (.decPush 0x7D) s = .next t ∧ exec .wireEsc s = .next t) ∧
    (∃ t, exec (.decPush b) s = .next t ∧ exec (.wireData b) s = .next t) ∧
    (∃ u t, exec (.decPush 0x7D) s = .next u ∧ exec (.decPush 0x5E) u = .next t ∧ exec .pairEscFlag s = .next t) ∧
    (∃ u t, exec (.decPush 0x7D) s = .next u ∧ exec (.decPush 0x5D) u = .next t ∧ exec .pairEscEsc s = .next t) ∧
    (∃ u t, exec (.decPush 0x7D) s = .next u ∧ exec (.decPush b) u = .next t ∧ exec (.pairEscAny b) s = .next t) ∧
    (∃ u t, exec (.decPush 0x7D) s = .next u ∧ exec (.decPush 0x7E) u = .next t ∧ exec .pairAbort s = .next t)

/-- R93, R94, R96 (derived; the rows as arrivals are log 15): inside a frame with room in the accumulator, an escape pair stands for its
byte, non-canonical pairs included, and 0x7D 0x7E aborts the frame. That its error is delivered on DEC_OUT is the model's reading
(log 10). -/
def Obligations.EscapePairStandsForItsByte : Prop :=
  ∀ (s : State) (b : Byte), s.dec.st = .inFrame → s.dec.acc.length < s.cfg.maxBody →
    exec .pairEscFlag s = .next { s with dec := { st := .inFrame, acc := s.dec.acc ++ [0x7E] }, ret := .nothing } ∧
    exec .pairEscEsc s = .next { s with dec := { st := .inFrame, acc := s.dec.acc ++ [0x7D] }, ret := .nothing } ∧
    (b ≠ 0x7E →
      exec (.pairEscAny b) s = .next { s with dec := { st := .inFrame, acc := s.dec.acc ++ [b ^^^ 0x20] }, ret := .nothing }) ∧
    exec .pairAbort s = .next (frameErrorState .truncated s)

/-- R167: every error of the decoder leaves the baseline, is returned and logged once, and changes nothing else but DEC_OUT, where it is
delivered. That an error, and not only a frame, is delivered there is the model's reading (log 10). -/
def Obligations.DecoderErrorsLeaveTheBaseline : Prop :=
  ∀ (s t : State) (b : Byte) (e : ErrorName), exec (.decPush b) s = .next t → t.ret = .err e →
    t = frameErrorState e s ∧ (e = .truncated ∨ e = .overflow ∨ e = .crcMismatch)

/-- R134 (in part derived): decoding an encoded payload delivers exactly the payload, with CRC on and off, for every payload the
accumulator can hold; afterwards nothing but the delivery has changed. -/
def Obligations.DecodeOfEncodeIsThePayload : Prop :=
  ∀ (s : State) (payload : Bytes), payload.length + 2 ≤ s.cfg.maxBody →
    ∃ (u : State) (f : Bytes),
      exec (.encFrame payload s.cfg.useCrc) s = .next u ∧ u.ret = .bytes f ∧
      runInstrs (.decReset :: f.map Instr.decPush) u =
        .next { u with dec := { st := .idle, acc := [] }, ret := .frame payload, decOut := u.decOut ++ [.frame payload] }

/-- R22, R23 (empty in `Idle` is the spec's own convention): the accumulator never exceeds `MAX_BODY` and is empty in `Idle`, from every
state of which that holds, whatever the step. -/
def Obligations.StepKeepsTheDecoderSafe : Prop :=
  ∀ s t : State, DecSafe s → step s = .next t → DecSafe t

/-! ## The CRC engine -/

/-- R182, whose shift direction is the spec's decision D9: CRC.UPDATE XORs the byte into the low half and shifts eight times, XORing
0x8408 in when the bit shifted out is 1. -/
def Obligations.CrcUpdateIsEightShifts : Prop :=
  ∀ (s : State) (c : Half) (b : Byte),
    exec (.crcUpdate c b) s =
      .next { s with
        ret := .word ((fun v : Half => if v.getLsbD 0 = true then (v >>> 1) ^^^ 0x8408 else v >>> 1)^[8] (c ^^^ b.setWidth 16)) }

/-- R182's table form, which the spec derives: `(c >> 8) ^ T[(c ^ b) & 0xFF]` with `T[i] = CRC.UPDATE(0, i)`. -/
def Obligations.CrcUpdateHasTheTableForm : Prop :=
  ∀ (s : State) (c : Half) (b : Byte),
    ∃ t : Half, exec (.crcUpdate 0 ((c ^^^ b.setWidth 16).setWidth 8)) s = .next { s with ret := .word t } ∧
      exec (.crcUpdate c b) s = .next { s with ret := .word ((c >>> 8) ^^^ t) }

/-- R183, R184: CRC.BLOCK starts from 0xFFFF and takes the bytes in order, with no final XOR; CRC.APPEND appends its result low byte
first. -/
def Obligations.CrcBlockFoldsAndAppendAddsTheTrailer : Prop :=
  ∀ (s : State) (d : Bytes),
    exec (.crcBlock []) s = .next { s with ret := .word 0xFFFF } ∧
    ∃ c : Half, exec (.crcBlock d) s = .next { s with ret := .word c } ∧
      (∀ b : Byte, exec (.crcBlock (d ++ [b])) s = exec (.crcUpdate c b) s) ∧
      exec (.crcAppend d) s = .next { s with ret := .bytes (d ++ [lo8 c, hi8 c]) }

/-- R185: CRC.VERIFY compares the last two bytes, low byte first, with the CRC of the bytes before them; a body shorter than two bytes
is refused. -/
def Obligations.CrcVerifyChecksTheTrailer : Prop :=
  ∀ (s : State) (d : Bytes) (t0 t1 : Byte),
    (∃ c : Half, exec (.crcBlock d) s = .next { s with ret := .word c } ∧
      exec (.crcVerify (d ++ [t0, t1])) s = .next { s with ret := .bool (c == le16 t0 t1) }) ∧
    (d.length < 2 → exec (.crcVerify d) s = .refused .verifyTooShort)

/-- R185's equivalent form, which the spec derives: the residue of this CRC is zero. -/
def Obligations.CrcVerifyIsZeroResidue : Prop :=
  ∀ (s : State) (body : Bytes), 2 ≤ body.length →
    ∃ c : Half, exec (.crcBlock body) s = .next { s with ret := .word c } ∧
      exec (.crcVerify body) s = .next { s with ret := .bool (c == 0) }

/-- R186 (derived): the CRC is linear over XOR on sequences of one length; the initial value drops out. -/
def Obligations.CrcIsLinear : Prop :=
  ∀ d e : Bytes, d.length = e.length →
    crc16 d ^^^ crc16 e = (List.zipWith (· ^^^ ·) d e).foldl crcStep 0

/-- R168 in its restricted form (derived, with general knowledge G7): a body that verifies does not verify with one byte changed, wherever
the byte stands. -/
def Obligations.OneChangedByteIsDetected : Prop :=
  ∀ (s : State) (pre post : Bytes) (b b' : Byte), b ≠ b' →
    exec (.crcVerify (pre ++ b :: post)) s = .next { s with ret := .bool true } →
    exec (.crcVerify (pre ++ b' :: post)) s = .next { s with ret := .bool false }

/-! ## The frame encoder -/

/-- R90, R91, R93, R130, R133: the frame is a flag, the escaped payload and trailer, and a flag; it goes to TX in order and is returned.
ENC.ESCAPE escapes byte by byte. -/
def Obligations.EncFrameEmitsTheEscapedFrame : Prop :=
  ∀ (s : State) (payload : Bytes) (useCrc : Bool) (esc : Byte → Bytes) (trailer f : Bytes),
    (esc = fun b => if b = 0x7E ∨ b = 0x7D then [0x7D, b ^^^ 0x20] else [b]) →
    (trailer = if useCrc then [lo8 (crc16 payload), hi8 (crc16 payload)] else [s.cfg.trailer0, s.cfg.trailer1]) →
    (f = [0x7E] ++ (payload ++ trailer).flatMap esc ++ [0x7E]) →
    exec (.encFrame payload useCrc) s = .next { s with tx := s.tx ++ f, ret := .bytes f } ∧
    exec (.encEscape payload) s = .next { s with ret := .bytes (payload.flatMap esc) }

/-- R95, R132, R135 (derived): a frame has a flag at each end and none between; between them every 0x7D is followed by 0x5E or 0x5D; its
length is the payload's plus four plus the number of escaped bytes. -/
def Obligations.FramesHaveFlagsOnlyAtTheirEnds : Prop :=
  ∀ (s t : State) (payload f : Bytes) (useCrc : Bool), exec (.encFrame payload useCrc) s = .next t → t.ret = .bytes f →
    ∃ body : Bytes, f = 0x7E :: (body ++ [0x7E]) ∧ (0x7E : Byte) ∉ body ∧
      (∀ pre post : Bytes, body = pre ++ 0x7D :: post → ∃ b rest, post = b :: rest ∧ (b = 0x5E ∨ b = 0x5D)) ∧
      f.length = payload.length + 4 +
        (payload ++ frameTrailer s.cfg payload useCrc).countP (fun b => b == 0x7E || b == 0x7D)

/-! ## The message layer -/

/-- R200 to R202 (one fragment for an empty payload is decision D14): one frame per fragment, in order, each with its header; a message of
more than 65535 fragments is refused. -/
def Obligations.MsgSendEmitsOneFramePerFragment : Prop :=
  ∀ (s : State) (command : Half) (id : Byte) (payload : Bytes) (count : Nat) (frame : Nat → Bytes),
    count = max 1 ((payload.length + 255) / 256) →
    (frame = fun i =>
      frameBytes s.cfg
        ([lo8 command, hi8 command, id, lo8 (BitVec.ofNat 16 count), hi8 (BitVec.ofNat 16 count), lo8 (BitVec.ofNat 16 i),
          hi8 (BitVec.ofNat 16 i), lo8 (BitVec.ofNat 16 (((payload.drop (256 * i)).take 256).length)),
          hi8 (BitVec.ofNat 16 (((payload.drop (256 * i)).take 256).length))] ++ (payload.drop (256 * i)).take 256) s.cfg.useCrc) →
    (payload.length ≤ 16776960 →
      exec (.msgSend command id payload) s =
        .next { s with tx := s.tx ++ ((List.range count).map frame).flatten, ret := .ok }) ∧
    (16776960 < payload.length → exec (.msgSend command id payload) s = .refused .messageTooLong)

/-- R201 (decision D14 for the empty payload): all fragments but the last carry 256 bytes, the last carries 1 to 256 when there is a
payload, and together they are the payload. -/
def Obligations.FragmentsRebuildThePayload : Prop :=
  ∀ payload : Bytes,
    ((List.range (fragCount payload.length)).map (fragment payload)).flatten = payload ∧
    (∀ i, i + 1 < fragCount payload.length → (fragment payload i).length = 256) ∧
    (payload ≠ [] →
      1 ≤ (fragment payload (fragCount payload.length - 1)).length ∧
      (fragment payload (fragCount payload.length - 1)).length ≤ 256)

/-- R210 (decision D13): a payload shorter than 9 bytes, a `Length` above 256 or other than the bytes that follow, and an index not below
the count are `MalformedHeader`, and change no state but the error's report. That the row MSGHDR is MSG.RECV of that header is the model's
choice (log 16). -/
def Obligations.MalformedHeadersAreDropped : Prop :=
  ∀ (s : State) (p data : Bytes) (command count index length : Half) (id : Byte),
    (p.length < 9 → exec (.msgRecv p) s = .next (droppedState .malformedHeader s)) ∧
    (256 < length.toNat ∨ length.toNat ≠ data.length ∨ count.toNat ≤ index.toNat →
      exec (.msgRecv (headerBytes command id count index length ++ data)) s = .next (droppedState .malformedHeader s) ∧
      exec (.msgHeader command id count index length data) s = .next (droppedState .malformedHeader s))

/-- R212 (decision D20): a one-fragment message is dispatched at once, whatever the context holds. That a command's row is its dispatch is
the model's choice (log 16). -/
def Obligations.OneFragmentMessageIsDispatched : Prop :=
  ∀ (s : State) (command length : Half) (id : Byte) (data : Bytes), length.toNat = data.length → data.length ≤ 256 →
    exec (.msgRecv (headerBytes command id 1 0 length ++ data)) s = exec (readCommandCode command id data) s

/-- R213, R215, R225 (decisions D15, D17, D18): with no context, a valid fragment of a longer message allocates one when its index is 0
and the buffer can hold the message; another index is `FragmentOutOfOrder` and a larger message `MalformedHeader`, and neither allocates.
That the row MSGHDR is MSG.RECV of that header is the model's choice (log 16). -/
def Obligations.FirstFragmentAllocatesTheContext : Prop :=
  ∀ (s : State) (command count index length : Half) (id : Byte) (data : Bytes), s.ctx.active = false →
    length.toNat = data.length → data.length ≤ 256 → index.toNat < count.toNat → 2 ≤ count.toNat →
    exec (.msgRecv (headerBytes command id count index length ++ data)) s = exec (.msgHeader command id count index length data) s ∧
    exec (.msgHeader command id count index length data) s =
      .next (if index ≠ 0 then droppedState .fragmentOutOfOrder s
        else if s.cfg.maxMessage < count.toNat * 256 then droppedState .malformedHeader s
        else { s with
          ctx := { active := true, id := id, count := count, nextIdx := 1, cmd := command, buf := data, idle := 0 },
          ret := .nothing })

/-- R214, R216: with a context, a fragment of another `ID` is `ReassemblyBusy` and keeps the context with its idle count; one of the same
message with another index than the next, an earlier or a later one, is `FragmentOutOfOrder` and releases it. -/
def Obligations.WrongFragmentsAreRejected : Prop :=
  ∀ (s : State) (command count index length : Half) (id : Byte) (data : Bytes), s.ctx.active = true →
    length.toNat = data.length → data.length ≤ 256 → index.toNat < count.toNat → 2 ≤ count.toNat →
    (id ≠ s.ctx.id →
      exec (.msgRecv (headerBytes command id count index length ++ data)) s = .next (droppedState .reassemblyBusy s)) ∧
    (id = s.ctx.id → count = s.ctx.count → index ≠ s.ctx.nextIdx →
      exec (.msgRecv (headerBytes command id count index length ++ data)) s =
        .next (droppedState .fragmentOutOfOrder { s with ctx := { s.ctx with active := false } }))

/-- R219, which rests on the spec's decision D16: a fragment with the context's `ID` and another count is `FragmentOutOfOrder`, whatever
its index, and releases the context. -/
def Obligations.AnotherCountIsOutOfOrder : Prop :=
  ∀ (s : State) (command count index length : Half) (id : Byte) (data : Bytes), s.ctx.active = true →
    length.toNat = data.length → data.length ≤ 256 → index.toNat < count.toNat → 2 ≤ count.toNat →
    id = s.ctx.id → count ≠ s.ctx.count →
    exec (.msgRecv (headerBytes command id count index length ++ data)) s =
      .next (droppedState .fragmentOutOfOrder { s with ctx := { s.ctx with active := false } })

/-- R217, R218, R219: the expected fragment is appended, whatever its length (decision D13) and its command (D17); the final one delivers
the whole message, with the command of the first fragment, and releases the context. That a command's row is its dispatch is the model's
choice (log 16). -/
def Obligations.ExpectedFragmentIsStoredOrDelivered : Prop :=
  ∀ (s : State) (command length : Half) (data : Bytes), s.ctx.active = true →
    length.toNat = data.length → data.length ≤ 256 → s.ctx.nextIdx.toNat < s.ctx.count.toNat → 2 ≤ s.ctx.count.toNat →
    (s.ctx.nextIdx.toNat + 1 < s.ctx.count.toNat →
      exec (.msgRecv (headerBytes command s.ctx.id s.ctx.count s.ctx.nextIdx length ++ data)) s =
        .next { s with
          ctx := { s.ctx with buf := s.ctx.buf ++ data, nextIdx := s.ctx.nextIdx + 1, idle := 0 }, ret := .nothing }) ∧
    (s.ctx.nextIdx.toNat + 1 = s.ctx.count.toNat →
      exec (.msgRecv (headerBytes command s.ctx.id s.ctx.count s.ctx.nextIdx length ++ data)) s =
        exec (readCommandCode s.ctx.cmd s.ctx.id (s.ctx.buf ++ data))
          { s with
            ctx := { s.ctx with buf := s.ctx.buf ++ data, nextIdx := s.ctx.nextIdx + 1, idle := 0, active := false } })

/-- R220 to R224 (decision D21; R222 to R224 in part derived): `Ack`, `Nak` and `Raw` are reported and send nothing; `Ping` is answered by
the same message; any other code is `UnknownCommand` with no reply. That a command's row is its dispatch is the model's choice
(log 16). -/
def Obligations.CommandsAreHandled : Prop :=
  ∀ (s : State) (command : Half) (id : Byte) (data : Bytes),
    exec (.cmdAck id data) s = .next { s with ret := .ack id data } ∧
    exec (.cmdNak id data) s = .next { s with ret := .nak id data } ∧
    exec (.cmdRaw id data) s = .next { s with ret := .raw id data } ∧
    exec (.cmdPing id data) s = exec (.msgSend 0x0003 id data) s ∧
    (data.length ≤ 16776960 →
      ∃ sent, exec (.cmdPing id data) s = .next { s with tx := s.tx ++ sent, ret := .ok }) ∧
    (command ≠ 1 → command ≠ 2 → command ≠ 3 → command ≠ 4 →
      exec (.cmdUnknown command id data) s = .next (droppedState .unknownCommand s))

/-- R226 (decision D19): MSG.TICK counts while a context is active and releases it, silently, when the count reaches `REASM_TIMEOUT`: `k`
ticks leave it active when the count stays below, and `REASM_TIMEOUT` ticks without a fragment always release it. -/
def Obligations.IdleTicksReleaseTheContext : Prop :=
  ∀ (s : State) (k : Nat),
    (s.ctx.active = false → exec .msgTick s = .next s) ∧
    (s.ctx.active = true →
      exec .msgTick s =
        .next { s with ctx := { s.ctx with idle := s.ctx.idle + 1, active := decide (s.ctx.idle + 1 < s.cfg.reasmTimeout) } }) ∧
    (s.ctx.active = true → s.ctx.idle + k < s.cfg.reasmTimeout →
      runInstrs (List.replicate k .msgTick) s = .next { s with ctx := { s.ctx with idle := s.ctx.idle + k } }) ∧
    (0 < s.cfg.reasmTimeout →
      ∃ c : Ctx, c.active = false ∧ runInstrs (List.replicate s.cfg.reasmTimeout .msgTick) s = .next { s with ctx := c })

/-- R228 (derived): receiving the frame payloads of a message in order ends in its dispatch, with the context released. That a command's
row is its dispatch is the model's choice (log 16). -/
def Obligations.ReceivingWhatWasSentDispatchesIt : Prop :=
  ∀ (s : State) (command : Half) (id : Byte) (payload : Bytes), s.ctx.active = false → payload.length ≤ 16776960 →
    256 * fragCount payload.length ≤ s.cfg.maxMessage →
    ∃ c : Ctx, c.active = false ∧
      runInstrs ((messagePayloads command id payload).map Instr.msgRecv) s =
        exec (readCommandCode command id payload) { s with ctx := c }

/-- R29, R30, R225 (decision D18; the bound on the buffer is derived): while a context is active it expects at least two fragments, has
received fewer, holds at most 256 bytes of each, and the buffer can hold the whole message, from every state of which that holds, whatever
the step. -/
def Obligations.StepKeepsTheContextSafe : Prop :=
  ∀ s t : State, CtxSafe s → step s = .next t → CtxSafe t

/-! ## The flash store -/

/-- R241, R242: FL.SCAN reports Dirty if some byte of the first `SCAN_LEN` differs from 0xFF, else Clean, and changes nothing. -/
def Obligations.ScanReportsAnyProgrammedByte : Prop :=
  ∀ s : State, s.fl.phase = .ready → s.fl.op = .none →
    ((∃ a, a < s.cfg.scanLen ∧ memGet s.fl.mem a ≠ 0xFF) → exec .flScan s = .next { s with ret := .dirty }) ∧
    ((∀ a, a < s.cfg.scanLen → memGet s.fl.mem a = 0xFF) → exec .flScan s = .next { s with ret := .clean })

/-- R250, R257, R268, R273: FL.ERASE enters the sequence whatever the region holds; FL.BOOT does so when the scan is Dirty and returns
`Ok` when it is Clean; while an operation is in progress every FL operation is refused. That the entry is a step of its own is the
model's choice (log 13). -/
def Obligations.EraseAndBootEnterTheSequence : Prop :=
  ∀ (s : State) (offset length : Nat) (data : Bytes),
    (s.fl.phase = .ready → s.fl.op = .none →
      exec .flErase s = .next { s with fl := { s.fl with op := .erase } } ∧
      ((∃ a, a < s.cfg.scanLen ∧ memGet s.fl.mem a ≠ 0xFF) → exec .flBoot s = exec .flErase s) ∧
      ((∀ a, a < s.cfg.scanLen → memGet s.fl.mem a = 0xFF) → exec .flBoot s = .next { s with ret := .ok })) ∧
    (s.fl.phase ≠ .ready ∨ s.fl.op ≠ .none →
      exec .flScan s = .refused .flashNotReady ∧ exec .flErase s = .refused .flashNotReady ∧
      exec (.flWrite offset data) s = .refused .flashNotReady ∧ exec (.flRead offset length) s = .refused .flashNotReady ∧
      exec .flBoot s = .refused .flashNotReady)

/-- R258, R259 (decisions D24, D25; the entry is log 13): outside the region or off the program units FL.WRITE is refused; on a Dirty scan
it is `NotClean` and nothing is unlocked; on a Clean one no data is `Ok`, and data enters the sequence with its operands latched. -/
def Obligations.WriteChecksThenEntersTheSequence : Prop :=
  ∀ (s : State) (offset : Nat) (data : Bytes), s.fl.phase = .ready → s.fl.op = .none →
    (s.cfg.flashSize < offset + data.length → exec (.flWrite offset data) s = .refused .outsideRegion) ∧
    (offset + data.length ≤ s.cfg.flashSize → offset % s.cfg.progUnit ≠ 0 ∨ data.length % s.cfg.progUnit ≠ 0 →
      exec (.flWrite offset data) s = .refused .notUnitAligned) ∧
    (offset + data.length ≤ s.cfg.flashSize → offset % s.cfg.progUnit = 0 → data.length % s.cfg.progUnit = 0 →
      ((∃ a, a < s.cfg.scanLen ∧ memGet s.fl.mem a ≠ 0xFF) → exec (.flWrite offset data) s = .next (droppedState .notClean s)) ∧
      ((∀ a, a < s.cfg.scanLen → memGet s.fl.mem a = 0xFF) →
        exec (.flWrite offset data) s =
          .next (if data = [] then { s with ret := .ok }
            else { s with fl := { s.fl with op := .write, offset := offset, data := data, unit := 0, failed := false } })))

/-- R66, R69, R266: FL.READ returns the bytes of the region at any offset and length inside it, lowest address first, and changes
nothing; outside it is refused, which is the spec's own decision D25. It requires that no flash operation is in progress (logs 12, 13).
-/
def Obligations.ReadReturnsTheRegionsBytes : Prop :=
  ∀ (s : State) (offset length : Nat), s.fl.phase = .ready → s.fl.op = .none →
    (offset + length ≤ s.cfg.flashSize →
      ∃ l : Bytes, exec (.flRead offset length) s = .next { s with ret := .bytes l } ∧ l.length = length ∧
        ∀ k, k < length → l[k]? = some (memGet s.fl.mem (offset + k))) ∧
    (s.cfg.flashSize < offset + length → exec (.flRead offset length) s = .refused .outsideRegion)

/-- R251 to R253, R261, R262 (decisions D22, D27, D29): the phases that unlock, select and start, each under its precondition and refused
without it. That a phase outside its precondition is refused, that SW is inside an operation or not, and that the loop of FL.WRITE counts
its units in `fl.unit`, are the model's (logs 12, 13). -/
def Obligations.PhasesUnlockSelectAndStart : Prop :=
  ∀ (s : State) (i : Nat),
    (s.fl.phase = .ready → s.fl.locked = true → s.fl.op ≠ .none → s.fl.keystep = 0 →
      exec .flcUnlock s =
        .next { s with fl := { s.fl with
          locked := false, keystep := 0, phase := if s.fl.op = .write then .wUnlocked else .eUnlocked } }) ∧
    (s.fl.phase = .eUnlocked →
      exec .flcSelectErase s =
        .next { s with fl := { s.fl with mode := .sectorErase, sector := s.cfg.flashSector, phase := .eSelected } }) ∧
    (s.fl.phase = .eSelected → s.fl.locked = false →
      exec .flcStartErase s =
        .next { s with fl := { s.fl with busy := true, complete := false, err := false, phase := .eBusy } }) ∧
    (s.fl.phase = .wUnlocked →
      exec .flcSelectProgram s = .next { s with fl := { s.fl with mode := .program, err := false, phase := .wMode } }) ∧
    (s.fl.phase = .wMode → s.fl.locked = false → s.fl.mode = .program → s.fl.busy = false → s.fl.err = false → s.fl.unit = i →
      i < s.fl.data.length / s.cfg.progUnit →
      exec (.flcProgramUnit i) s = .next { s with fl := { s.fl with busy := true, phase := .wBusy i } }) ∧
    (s.fl.phase ≠ .ready ∨ s.fl.locked = false ∨ s.fl.op = .none → exec .flcUnlock s = .refused .phaseNotEnabled) ∧
    (s.fl.phase = .ready → s.fl.locked = true → s.fl.op ≠ .none → s.fl.keystep ≠ 0 → s.cfg.flashKey1 ≠ s.cfg.flashKey2 →
      exec .flcUnlock s = .refused .wrongKey) ∧
    (s.fl.phase ≠ .eUnlocked → exec .flcSelectErase s = .refused .phaseNotEnabled) ∧
    (s.fl.phase ≠ .eSelected ∨ s.fl.locked = true → exec .flcStartErase s = .refused .phaseNotEnabled) ∧
    (s.fl.phase ≠ .wUnlocked → exec .flcSelectProgram s = .refused .phaseNotEnabled) ∧
    (s.fl.phase ≠ .wMode ∨ s.fl.locked = true ∨ s.fl.mode ≠ .program ∨ s.fl.busy = true ∨ s.fl.err = true ∨ s.fl.unit ≠ i ∨
        s.fl.data.length / s.cfg.progUnit ≤ i →
      exec (.flcProgramUnit i) s = .refused .phaseNotEnabled)

/-- R254, R272 (decision D28): an erase's completion, for every value of the two draws (log 7): on success every byte is 0xFF; on a
failure the error flag is set and no byte outside the region changes. With no erase in progress it is refused (log 12). -/
def Obligations.EraseCompletes : Prop :=
  ∀ s : State,
    (s.fl.phase = .eBusy → s.fl.mem.wf →
      ∃ m : Memory,
        exec .flcCompleteErase s =
          .next { s with
            fl := { s.fl with
              mem := m, busy := false, complete := true, err := s.fl.err || Config.drawFail s.draws, phase := .eDone },
            draws := s.draws + 1 } ∧
        m.wf ∧
        (∀ a, memGet m a =
          if Config.drawFail s.draws = true then
            (if a < s.cfg.flashSize then Config.drawByte s.draws a else memGet s.fl.mem a)
          else 0xFF)) ∧
    (s.fl.phase ≠ .eBusy → exec .flcCompleteErase s = .refused .phaseNotEnabled)

/-- R262, R263, R272 (decision D28): a unit's completion, for every value of the two draws (log 7): on success each byte of the unit is
`old & new`, on a failure it is drawn and the error flag is set; every byte outside the unit is unchanged. With that unit not in progress
it is refused (log 12). -/
def Obligations.UnitCompletes : Prop :=
  ∀ (s : State) (i a0 : Nat),
    (s.fl.phase = .wBusy i → s.fl.mem.wf → (i + 1) * s.cfg.progUnit ≤ s.fl.data.length → a0 = s.fl.offset + i * s.cfg.progUnit →
      ∃ m : Memory,
        exec (.flcCompleteUnit i) s =
          .next { s with
            fl := { s.fl with
              mem := m, busy := false, err := s.fl.err || Config.drawFail s.draws, phase := .wMode, unit := i + 1 },
            draws := s.draws + 1 } ∧
        m.wf ∧
        (∀ a, a0 ≤ a ∧ a < a0 + s.cfg.progUnit →
          memGet m a =
            if Config.drawFail s.draws = true then Config.drawByte s.draws a
            else memGet s.fl.mem a &&& s.fl.data.getD (a - s.fl.offset) 0) ∧
        (∀ a, ¬(a0 ≤ a ∧ a < a0 + s.cfg.progUnit) → memGet m a = memGet s.fl.mem a)) ∧
    (s.fl.phase ≠ .wBusy i → exec (.flcCompleteUnit i) s = .refused .phaseNotEnabled)

/-- R250, R256, R258, R264 (decision D28; the result at FLC.LOCK is log 13): the read-back compares the whole written range; the lock
phase locks on success and on failure alike and the operation returns its result. The verify is refused but after the last unit, without
an error and with no unit in progress; the lock is refused where no sequence ends: outside E_Done, W_Verify and W_Mode, in E_Done before
the completion flag, in W_Mode without a failed unit (log 12). -/
def Obligations.VerifyAndLockEndTheSequence : Prop :=
  ∀ (s : State) (f : Fl),
    (f = { s.fl with
      locked := true, mode := .none, complete := false, err := false, busy := false, phase := .ready, op := .none, offset := 0,
      data := [], unit := 0, failed := false }) →
    (s.fl.phase = .wMode → s.fl.err = false → s.fl.busy = false → s.fl.unit = s.fl.data.length / s.cfg.progUnit →
      s.fl.offset + s.fl.data.length ≤ s.cfg.flashSize →
      ∃ same : Bool, (same = true ↔ ∀ k, k < s.fl.data.length → s.fl.data[k]? = some (memGet s.fl.mem (s.fl.offset + k))) ∧
        exec .flcVerify s = .next { s with fl := { s.fl with phase := .wVerify, failed := !same }, ret := .bool same }) ∧
    (s.fl.phase = .eDone → s.fl.complete = true →
      exec .flcLock s =
        .next (if s.fl.err = true then droppedState .eraseFailed { s with fl := f } else { s with fl := f, ret := .ok })) ∧
    (s.fl.phase = .wVerify →
      exec .flcLock s =
        .next (if s.fl.failed = true then droppedState .programFailed { s with fl := f } else { s with fl := f, ret := .ok })) ∧
    (s.fl.phase = .wMode → s.fl.err = true → s.fl.busy = false →
      exec .flcLock s = .next (droppedState .programFailed { s with fl := f })) ∧
    (s.fl.phase ≠ .wMode ∨ s.fl.err = true ∨ s.fl.busy = true ∨ s.fl.unit ≠ s.fl.data.length / s.cfg.progUnit →
      exec .flcVerify s = .refused .phaseNotEnabled) ∧
    (s.fl.phase ≠ .eDone → s.fl.phase ≠ .wVerify → s.fl.phase ≠ .wMode → exec .flcLock s = .refused .phaseNotEnabled) ∧
    (s.fl.phase = .eDone → s.fl.complete = false → exec .flcLock s = .refused .phaseNotEnabled) ∧
    (s.fl.phase = .wMode → s.fl.err = false ∨ s.fl.busy = true → exec .flcLock s = .refused .phaseNotEnabled)

/-- R250, R257, R269 (decisions D26, D28): FL.ERASE run through its phases, on a Clean or a Dirty region, for every value of the draw:
`Ok` and a region of 0xFF bytes, or `EraseFailed`; the controller is locked and ready again either way. That FL.ERASE is issued in a step
of its own before FLC.UNLOCK and that FLC.LOCK returns the result (log 13), and that the draw is a free value of the draw counter (log 7),
are the model's choice. -/
def Obligations.EraseRunsToItsEnd : Prop :=
  ∀ s : State, s.fl.phase = .ready → s.fl.op = .none → s.fl.locked = true → s.fl.keystep = 0 →
    ∃ t : State,
      runInstrs [.flErase, .flcUnlock, .flcSelectErase, .flcStartErase, .flcCompleteErase, .flcLock] s = .next t ∧
      t.fl.phase = .ready ∧ t.fl.op = .none ∧ t.fl.locked = true ∧ t.fl.busy = false ∧ t.fl.err = false ∧
      (if Config.drawFail s.draws = true then t.ret = .err .eraseFailed ∧ t.log = s.log ++ [.error .eraseFailed]
        else t.ret = .ok ∧ t.log = s.log ∧ ∀ a, memGet t.fl.mem a = 0xFF)

/-- R67: whatever runs, a byte of the region changes only by the completion of an erase or of a unit, while the controller is busy with
it, or by a reset that cuts one. (What a completed unit makes of a byte is UnitCompletes.) -/
def Obligations.RegionChangesOnlyWhileBusy : Prop :=
  ∀ (i : Instr) (s t : State) (a : Nat), exec i s = .next t → memGet t.fl.mem a ≠ memGet s.fl.mem a →
    (s.fl.phase = .eBusy ∧ (i = .flcCompleteErase ∨ ∃ c, t.resets = s.resets ++ [c])) ∨
    ∃ j, s.fl.phase = .wBusy j ∧ (i = .flcCompleteUnit j ∨ ∃ c, t.resets = s.resets ++ [c])

/-- R33, R35, R38, R240, R258, R262, R271 (an invariant the model derives from them): the memory stays canonical and inside the region,
the control fields and flags are those of the phase, no key is half written; and when the scan covers the region, a write without a
controller error leaves exactly the units done programmed and the rest erased. From every state of which that holds, whatever the step. -/
def Obligations.StepKeepsTheWriteProgress : Prop :=
  ∀ s t : State, WriteProgress s → step s = .next t → WriteProgress t

/-! ## Reset -/

/-- R50, R112, R270, R271, R312, R313, R372 (decisions D27, D35): a reset of any cause, where that cause raises it, emits it, puts every
volatile field at its reset value, keeps the region but for the bytes of an erase or a unit it cuts, and puts SW at the start of its boot
sequence; the fault record survives only with `RETAIN_FAULT` and no power-on. The values of fields that hold no value are the model's
choice and are not stated (log 9); so is that the ports' records are kept (log 10), that the requests of the run that ended give way to
those of the next (log 25), and that a reset presented by name where nothing raises it is refused (log 27). -/
def Obligations.ResetRestartsTheBlock : Prop :=
  ∀ (s : State) (c : Cause), s.fl.mem.wf →
    ((c = .hardFault → s.hf.phase = .logged ∧ s.hf.stuck = false) →
      (c = .watchdogTimeout → s.wdg.armed = true ∧ s.wdg.timeout ≤ s.wdg.cnt + 1) →
      ∃ t : State, exec (.sysReset c) s = .next t ∧ t.cfg = s.cfg ∧ t.resets = s.resets ++ [c] ∧
        t.dec.st = .idle ∧ t.dec.acc = [] ∧ t.ctx.active = false ∧
        t.fl.locked = true ∧ t.fl.keystep = 0 ∧ t.fl.mode = .none ∧ t.fl.busy = false ∧ t.fl.complete = false ∧ t.fl.err = false ∧
        t.fl.phase = .ready ∧ t.wdg.armed = false ∧ t.wdg.cnt = 0 ∧ t.hf.phase = .idle ∧
        (s.cfg.retainFault = false ∨ c = .powerOn → t.hf.record.valid = false) ∧
        (s.cfg.retainFault = true → c ≠ .powerOn → t.hf.record = s.hf.record) ∧
        t.boot = .arm ∧ t.port = s.runs.headD [] ∧ t.runs = s.runs.tail ∧
        t.tx = s.tx ∧ t.decOut = s.decOut ∧ t.log = s.log ∧
        (s.fl.phase ≠ .eBusy → (∀ i, s.fl.phase ≠ .wBusy i) → t.fl.mem = s.fl.mem) ∧
        (∀ i, s.fl.phase = .wBusy i → ∀ a, ¬(s.fl.offset + i * s.cfg.progUnit ≤ a ∧
          a < s.fl.offset + i * s.cfg.progUnit + s.cfg.progUnit) → memGet t.fl.mem a = memGet s.fl.mem a) ∧
        (s.fl.phase = .eBusy → ∀ a, s.cfg.flashSize ≤ a → memGet t.fl.mem a = memGet s.fl.mem a)) ∧
    (s.hf.phase ≠ .logged ∨ s.hf.stuck = true → exec (.sysReset .hardFault) s = .refused .resetNotRaised) ∧
    (s.wdg.armed = false ∨ s.wdg.cnt + 1 < s.wdg.timeout → exec (.sysReset .watchdogTimeout) s = .refused .resetNotRaised)

/-- R50, R372 (decisions D29 to D35): the machine right after reset has the values the spec gives, with SW at the start of its boot
sequence, and meets every invariant. -/
def Obligations.ResetStateIsSafe : Prop :=
  State.reset.dec.st = .idle ∧ State.reset.dec.acc = [] ∧ State.reset.ctx.active = false ∧ State.reset.fl.locked = true ∧
  State.reset.fl.keystep = 0 ∧ State.reset.fl.mode = .none ∧ State.reset.fl.busy = false ∧ State.reset.fl.complete = false ∧
  State.reset.fl.err = false ∧ State.reset.fl.phase = .ready ∧ State.reset.wdg.armed = false ∧ State.reset.wdg.cnt = 0 ∧
  State.reset.hf.phase = .idle ∧ State.reset.hf.record.valid = false ∧ State.reset.boot = .arm ∧
  DecSafe State.reset ∧ CtxSafe State.reset ∧ WriteProgress State.reset ∧ WdgSafe State.reset ∧ HfSafe State.reset

/-- R268, R375 (decision D37): where SW is at the start of its boot sequence and nothing is presented, the block's first step arms the
watchdog with `WDG_TIMEOUT` and its second is FL.BOOT: `Ok` on a Clean scan, on a Dirty one SW enters FL.ERASE, whose phases are steps of
their own (log 13). Until the sequence has come to it, a request of SW or of a task waits: before the arming all but that arming, before
FL.BOOT all but that and reads of the stored record. That SW's place in the sequence is a field of the state is the model's choice
(log 20). -/
def Obligations.BootArmsThenEntersEraseWhenDirty : Prop :=
  (∀ s u : State, s.boot = .arm → s.port = [] → s.hf.phase = .idle → s.fl.phase = .ready → s.fl.op = .none →
    s.wdg.armed = false → 0 < s.cfg.wdgTimeout →
    u = { s with wdg := { armed := true, timeout := s.cfg.wdgTimeout, cnt := 0 }, boot := .store } →
    step s = .next u ∧
    ((∀ a, a < s.cfg.scanLen → memGet s.fl.mem a = 0xFF) → step u = .next { u with boot := .tasks, ret := .ok }) ∧
    ((∃ a, a < s.cfg.scanLen ∧ memGet s.fl.mem a ≠ 0xFF) →
      step u = .next { u with boot := .tasks, fl := { u.fl with op := .erase } })) ∧
  (∀ (s : State) (r : Request) (rest : List Request) (i : Instr),
    s.port = r :: rest → decode r = .ok i → mayIssue r.agent i = true → isSoftware (issuerOf i) = true →
    (s.boot = .arm → i ≠ .wdgArm s.cfg.wdgTimeout → step s = ownStep s) ∧
    (s.boot = .store → i ≠ .flBoot → (∀ o n, i ≠ .flRead o n) → step s = ownStep s)) ∧
  (∀ n, bootAfter .arm (.wdgArm n) = .store) ∧ bootAfter .store .flBoot = .tasks ∧
  (∀ (b : BootStep) (i : Instr), ¬(b = .arm ∧ ∃ n, i = .wdgArm n) → ¬(b = .store ∧ i = .flBoot) → bootAfter b i = b)

/-! ## The watchdog -/

/-- R291 to R293, R295 (decisions D31, D32): arming, feeding and one tick. -/
def Obligations.WatchdogArmsFeedsAndTicks : Prop :=
  ∀ (s : State) (timeout : Nat),
    (s.wdg.armed = false → 0 < timeout →
      exec (.wdgArm timeout) s = .next { s with wdg := { armed := true, timeout := timeout, cnt := 0 } }) ∧
    (s.wdg.armed = true → exec (.wdgArm timeout) s = .refused .alreadyArmed) ∧
    (s.wdg.armed = false → exec (.wdgArm 0) s = .refused .timeoutZero) ∧
    (s.wdg.armed = true → exec .wdgFeed s = .next { s with wdg := { s.wdg with cnt := 0 } }) ∧
    (s.wdg.armed = false → exec .wdgFeed s = .next s ∧ exec .wdgTick s = .next s) ∧
    (s.wdg.armed = true → s.wdg.cnt + 1 < s.wdg.timeout →
      exec .wdgTick s = .next { s with wdg := { s.wdg with cnt := s.wdg.cnt + 1 } }) ∧
    (s.wdg.armed = true → s.wdg.timeout ≤ s.wdg.cnt + 1 →
      ∃ t : State, exec .wdgTick s = .next t ∧ exec (.sysReset .watchdogTimeout) s = .next t)

/-- R296, R297 (decision D31: the reset fires at equality): from a feed, `k` ticks below the timeout reset nothing; at the timeout the
reset comes, and comes once, however many ticks follow; and a heartbeat that feeds every `FEED_PERIOD < timeout` ticks is never reset. -/
def Obligations.WatchdogFiresOnceAtTheTimeout : Prop :=
  ∀ (s : State) (k : Nat), s.wdg.armed = true → s.wdg.cnt = 0 → 0 < s.wdg.timeout →
    (k < s.wdg.timeout →
      runInstrs (List.replicate k .wdgTick) s = .next { s with wdg := { s.wdg with cnt := k } }) ∧
    (s.wdg.timeout ≤ k →
      ∃ t : State, runInstrs (List.replicate k .wdgTick) s = .next t ∧ t.resets = s.resets ++ [.watchdogTimeout] ∧
        t.wdg.armed = false ∧ t.wdg.cnt = 0) ∧
    (s.cfg.feedPeriod < s.wdg.timeout → runInstrs (List.replicate k (heartbeatRound s.cfg)).flatten s = .next s)

/-! ## The hardfault path -/

/-- R305 to R308, R310 (decisions D34, D39; the field `stuck` is log 18): the trap entry latches the registers, or stops the sequencer
when one is already running; capture, log and reset, each in its phase only. That registers which do not fit the build are refused is the
model's choice (log 19). -/
def Obligations.HardFaultSteps : Prop :=
  ∀ (s : State) (pc lr : Nat) (fsr : List Nat),
    (faultRegsOk s.cfg pc lr fsr = true → s.hf.phase = .idle →
      exec (.hfEnter pc lr fsr) s =
        .next { s with hf := { s.hf with phase := .entered, input := { pc := pc, lr := lr, fsr := fsr } } }) ∧
    (faultRegsOk s.cfg pc lr fsr = true → s.hf.phase ≠ .idle →
      exec (.hfEnter pc lr fsr) s = .next { s with hf := { s.hf with stuck := true } }) ∧
    (faultRegsOk s.cfg pc lr fsr = false → exec (.hfEnter pc lr fsr) s = .refused .faultRegsWidth) ∧
    (s.hf.phase = .entered → s.hf.stuck = false →
      exec .hfCapture s =
        .next { s with hf := { s.hf with phase := .captured, record := { valid := true, regs := s.hf.input } } }) ∧
    (s.hf.phase = .captured → s.hf.stuck = false → s.hf.record.valid = true →
      exec .hfLog s =
        .next { s with log := s.log ++ [.hardFault s.hf.record.regs], hf := { s.hf with phase := .logged } }) ∧
    (s.hf.phase = .logged → s.hf.stuck = false →
      ∃ t : State, exec .hfReset s = .next t ∧ exec (.sysReset .hardFault) s = .next t) ∧
    (s.hf.phase ≠ .entered ∨ s.hf.stuck = true → exec .hfCapture s = .refused .hfOutOfOrder) ∧
    (s.hf.phase ≠ .captured ∨ s.hf.stuck = true → exec .hfLog s = .refused .hfOutOfOrder) ∧
    (s.hf.phase ≠ .logged ∨ s.hf.stuck = true → exec .hfReset s = .refused .hfOutOfOrder)

/-- R300: a fault's registers are captured, logged and the device reset, whatever the units were doing, in four steps, which are the spec's
own decision D34. The record survives the reset with `RETAIN_FAULT` and is not valid without it (R313, its own decision D35). -/
def Obligations.HardFaultSequenceLogsAndResets : Prop :=
  ∀ (s : State) (pc lr : Nat) (fsr : List Nat), faultRegsOk s.cfg pc lr fsr = true → s.hf.phase = .idle → s.hf.stuck = false →
    ∃ t : State,
      runInstrs [.hfEnter pc lr fsr, .hfCapture, .hfLog, .hfReset] s = .next t ∧
      t.log = s.log ++ [.hardFault { pc := pc, lr := lr, fsr := fsr }] ∧ t.resets = s.resets ++ [.hardFault] ∧
      t.hf.phase = .idle ∧ t.wdg.armed = false ∧ t.dec.st = .idle ∧ t.ctx.active = false ∧
      (s.cfg.retainFault = true → t.hf.record = { valid := true, regs := { pc := pc, lr := lr, fsr := fsr } }) ∧
      (s.cfg.retainFault = false → t.hf.record.valid = false)

/-- R310, R311: with the sequencer stuck and nothing asynchronous presented, the block's only step is the watchdog's tick; with the
watchdog not armed it has none. That this is a fault is the model's form of "stuck" (log 18). -/
def Obligations.SecondFaultLeavesOnlyTheWatchdog : Prop :=
  ∀ s : State, s.hf.phase ≠ .idle → s.hf.stuck = true →
    (∀ r rest i, s.port = r :: rest → decode r = .ok i → mayIssue r.agent i = true → isSoftware (issuerOf i) = true →
      (s.wdg.armed = true → step s = exec .wdgTick s) ∧ (s.wdg.armed = false → step s = .fault .stuck)) ∧
    (s.port = [] → (s.wdg.armed = true → step s = exec .wdgTick s) ∧ (s.wdg.armed = false → step s = .fault .stuck))

/-! ## The whole machine -/

/-- R345, R346, R352 (decision D40; the row HardFault as the trap entry is log 17): whatever runs, the exception level is entered by the
hardfault event alone and left by a reset alone. -/
def Obligations.ExceptionLevelEndsOnlyInReset : Prop :=
  ∀ (i : Instr) (s t : State), exec i s = .next t →
    (s.hf.phase ≠ .idle → t.hf.phase = .idle → ∃ c, t.resets = s.resets ++ [c]) ∧
    (s.hf.phase = .idle → t.hf.phase ≠ .idle →
      ∃ pc lr fsr, i = .hfEnter pc lr fsr ∨ i = .errHardFault pc lr fsr)

/-- R20, R21 (the rows of the table beside the operations belong to units by logs 14 to 17): whatever runs, the parameters stay, and
unless it is a reset a unit's state is written by that unit's rows alone; TX is written by the encoder and the message layer alone, and
no instruction writes what is still to be presented (log 2) or SW's place in the boot sequence (log 20). -/
def Obligations.UnitsOwnTheirState : Prop :=
  ∀ (i : Instr) (s t : State), exec i s = .next t →
    t.cfg = s.cfg ∧
    (t.resets = s.resets →
      (t.dec ≠ s.dec → unitOf i = .dec) ∧ (t.ctx ≠ s.ctx → unitOf i = .msg) ∧ (t.fl ≠ s.fl → unitOf i = .fl) ∧
      (t.wdg ≠ s.wdg → unitOf i = .wdg) ∧ (t.hf ≠ s.hf → unitOf i = .hf) ∧
      (t.tx ≠ s.tx → unitOf i = .enc ∨ unitOf i = .msg) ∧ t.port = s.port ∧ t.runs = s.runs ∧ t.boot = s.boot)

/-- R330, R331, R333: each error result is returned and logged and leaves the state of its column, where its operation meets the condition
of its line; the two fault events are the trap entry and the watchdog's expiry. That the row of an error code is the operation that raises
it, on operands that meet the condition, and is refused in a state where none do, is the model's choice (logs 17, 27); that a frame error is
delivered on DEC_OUT is its reading (log 10). -/
def Obligations.ErrorsAreRaised : Prop :=
  ∀ (s : State) (pc lr : Nat) (fsr : List Nat) (f : Fl),
    (f = { s.fl with
      locked := true, mode := .none, complete := false, err := false, busy := false, phase := .ready, op := .none, offset := 0,
      data := [], unit := 0, failed := false }) →
    exec .errTruncated s =
      (if s.dec.st = .escaped ∨ s.dec.st = .inFrame ∧ s.dec.acc.length = 1 then .next (frameErrorState .truncated s)
        else .refused .errorNotRaised) ∧
    exec .errOverflow s =
      (if s.dec.st ≠ .idle ∧ s.dec.acc.length = s.cfg.maxBody then .next (frameErrorState .overflow s)
        else .refused .errorNotRaised) ∧
    (s.dec.st ≠ .inFrame ∨ s.dec.acc.length < 2 → exec .errCrcMismatch s = .refused .errorNotRaised) ∧
    (∀ (payload : Bytes) (t0 t1 : Byte), s.dec.st = .inFrame → s.dec.acc = payload ++ [t0, t1] →
      exec .errCrcMismatch s =
        if s.cfg.useCrc = true ∧ crc16 payload ≠ le16 t0 t1 then .next (frameErrorState .crcMismatch s)
        else .refused .errorNotRaised) ∧
    exec .errMalformedHeader s = .next (droppedState .malformedHeader s) ∧
    exec .errFragmentOutOfOrder s =
      .next (droppedState .fragmentOutOfOrder { s with ctx := { s.ctx with active := false } }) ∧
    exec .errReassemblyBusy s =
      (if s.ctx.active = true then .next (droppedState .reassemblyBusy s) else .refused .errorNotRaised) ∧
    exec .errUnknownCommand s = .next (droppedState .unknownCommand s) ∧
    (s.fl.phase = .ready → s.fl.op = .none →
      ((∃ a, a < s.cfg.scanLen ∧ memGet s.fl.mem a ≠ 0xFF) → exec .errNotClean s = .next (droppedState .notClean s)) ∧
      ((∀ a, a < s.cfg.scanLen → memGet s.fl.mem a = 0xFF) → exec .errNotClean s = .refused .errorNotRaised)) ∧
    (s.fl.phase ≠ .ready ∨ s.fl.op ≠ .none → exec .errNotClean s = .refused .flashNotReady) ∧
    (s.fl.phase = .eDone → s.fl.complete = true → s.fl.err = true →
      exec .errEraseFailed s = .next (droppedState .eraseFailed { s with fl := f })) ∧
    (s.fl.phase ≠ .eDone ∨ s.fl.complete = false ∨ s.fl.err = false → ∃ e, exec .errEraseFailed s = .refused e) ∧
    (s.fl.phase = .wVerify ∧ s.fl.failed = true ∨ s.fl.phase = .wMode ∧ s.fl.err = true ∧ s.fl.busy = false →
      exec .errProgramFailed s = .next (droppedState .programFailed { s with fl := f })) ∧
    (¬(s.fl.phase = .wVerify ∧ s.fl.failed = true ∨ s.fl.phase = .wMode ∧ s.fl.err = true ∧ s.fl.busy = false) →
      ∃ e, exec .errProgramFailed s = .refused e) ∧
    (faultRegsOk s.cfg pc lr fsr = true →
      ∃ t, exec (.hfEnter pc lr fsr) s = .next t ∧ exec (.errHardFault pc lr fsr) s = .next t) ∧
    (s.wdg.armed = true → s.wdg.timeout ≤ s.wdg.cnt + 1 →
      ∃ t, exec .wdgTick s = .next t ∧ exec .errWatchdogTimeout s = .next t) ∧
    (s.wdg.armed = false ∨ s.wdg.cnt + 1 < s.wdg.timeout → exec .errWatchdogTimeout s = .refused .resetNotRaised)

/-- R43, R45, R46, R296 (derived from R291 to R295, R305 to R308 and R375): an armed watchdog has counted fewer ticks than its timeout, and
it is armed exactly once SW's boot sequence has armed it (log 20); from the capture on the fault record is valid and holds the latched
registers; from every state of which that holds, whatever the step. -/
def Obligations.StepKeepsTheMonitorSafe : Prop :=
  ∀ s t : State, WdgSafe s ∧ HfSafe s → step s = .next t → WdgSafe t ∧ HfSafe t
end

