-- ==== Sys2Proof/Laws/Memory.lean ====
section
/-! SUPPORT. The region's memory: reading after writing, and every memory operation keeps the canonical form. -/

namespace Sys2Proof.Machine

theorem wf_nil : Memory.wf [] := ⟨List.Pairwise.nil, by simp⟩

theorem wf_cons {k : Nat} {b : Byte} {t : Memory} :
    Memory.wf ((k, b) :: t) ↔ (∀ c ∈ t, k < c.1) ∧ b ≠ erasedByte ∧ Memory.wf t := by
  simp only [Memory.wf, List.map_cons, List.pairwise_cons, List.mem_map, List.mem_cons, forall_exists_index, and_imp,
    forall_apply_eq_imp_iff₂, forall_eq_or_imp]
  tauto

/-- An offset below every listed one is erased. -/
theorem memGet_of_lt {m : Memory} {a : Nat} (h : ∀ c ∈ m, a < c.1) : memGet m a = erasedByte := by
  induction m with
  | nil => rfl
  | cons c t ih =>
    obtain ⟨k, b⟩ := c
    have hk : a < k := h (k, b) (by simp)
    simp only [memGet, Nat.ne_of_gt hk, if_false]
    exact ih (fun c hc => h c (by simp [hc]))

theorem mem_memSet {m : Memory} {a : Nat} {v : Byte} {c : Host.Cell} (h : c ∈ memSet m a v) :
    c ∈ m ∨ (c = (a, v) ∧ v ≠ erasedByte) := by
  induction m with
  | nil =>
    simp only [memSet] at h
    split at h
    · cases h
    · simp_all
  | cons d t ih =>
    obtain ⟨k, b⟩ := d
    simp only [memSet] at h
    split at h
    · split at h
      · exact .inl h
      · rcases List.mem_cons.mp h with h | h
        · exact .inr ⟨h, ‹_›⟩
        · exact .inl h
    · split at h
      · split at h
        · exact .inl (List.mem_cons_of_mem _ h)
        · rcases List.mem_cons.mp h with h | h
          · exact .inr ⟨h, ‹_›⟩
          · exact .inl (List.mem_cons_of_mem _ h)
      · rcases List.mem_cons.mp h with h | h
        · exact .inl (h ▸ List.mem_cons_self)
        · rcases ih h with h | h
          · exact .inl (List.mem_cons_of_mem _ h)
          · exact .inr h

theorem memSet_wf {m : Memory} (h : m.wf) (a : Nat) (v : Byte) : Memory.wf (memSet m a v) := by
  induction m with
  | nil =>
    simp only [memSet]
    split
    · exact wf_nil
    · exact wf_cons.mpr ⟨by simp, ‹_›, wf_nil⟩
  | cons d t ih =>
    obtain ⟨k, b⟩ := d
    obtain ⟨h1, h2, h3⟩ := wf_cons.mp h
    simp only [memSet]
    split
    · next hlt =>
      split
      · exact h
      · exact wf_cons.mpr ⟨fun c hc => by
          rcases List.mem_cons.mp hc with hc | hc
          · exact hc ▸ hlt
          · exact Nat.lt_trans hlt (h1 c hc), ‹_›, h⟩
    · next hlt =>
      split
      · next heq =>
        split
        · exact h3
        · exact wf_cons.mpr ⟨heq ▸ h1, ‹_›, h3⟩
      · next hne =>
        exact wf_cons.mpr ⟨fun c hc => by
          rcases mem_memSet hc with hc | hc
          · exact h1 c hc
          · rw [hc.1]; show k < a; omega, h2, ih h3⟩

/-- Reading after writing (R66, R67). -/
theorem memGet_memSet {m : Memory} (h : m.wf) (a b : Nat) (v : Byte) :
    memGet (memSet m a v) b = if b = a then v else memGet m b := by
  induction m with
  | nil => by_cases hv : v = erasedByte <;> by_cases hb : b = a <;> simp_all [memSet, memGet, eq_comm]
  | cons d t ih =>
    obtain ⟨k, c⟩ := d
    obtain ⟨h1, h2, h3⟩ := wf_cons.mp h
    simp only [memSet]
    split
    · next hlt =>
      have hall : ∀ c' ∈ ((k, c) :: t : Memory), a < c'.1 := fun c' hc => by
        rcases List.mem_cons.mp hc with hc | hc
        · exact hc ▸ hlt
        · exact Nat.lt_trans hlt (h1 c' hc)
      split
      · next hv =>
        split
        · next hb => rw [hb, memGet_of_lt hall, hv]
        · rfl
      · by_cases hb : b = a
        · simp [memGet, hb]
        · simp [memGet, hb, Ne.symm hb]
    · next hlt =>
      split
      · next heq =>
        subst heq
        have hnone : memGet t a = erasedByte := memGet_of_lt h1
        split
        · next hv => by_cases hb : b = a <;> simp_all [memGet, eq_comm]
        · by_cases hb : b = a <;> simp_all [memGet, eq_comm]
      · next hne =>
        by_cases hk : k = b
        · subst hk; simp [memGet, Ne.symm hne]
        · simp [memGet, hk, ih h3]

theorem memProg_wf {m : Memory} (h : m.wf) (a : Nat) (d : Bytes) : Memory.wf (memProg m a d) := by
  induction d generalizing m a with
  | nil => exact h
  | cons v t ih => exact ih (memSet_wf h _ _) _

/-- `FlashProg` (R262): each programmed byte is `old & new`, every other byte stays. -/
theorem memGet_memProg {m : Memory} (h : m.wf) (a : Nat) (d : Bytes) (b : Nat) :
    memGet (memProg m a d) b =
      if a ≤ b ∧ b < a + d.length then memGet m b &&& d.getD (b - a) 0 else memGet m b := by
  induction d generalizing m a with
  | nil => simp [memProg]
  | cons v t ih =>
    rw [memProg, ih (memSet_wf h _ _), memGet_memSet h]
    by_cases hb : b = a
    · subst hb; simp
    · by_cases h1 : a + 1 ≤ b ∧ b < a + 1 + t.length
      · have h2 : a ≤ b ∧ b < a + (v :: t).length := by simp only [List.length_cons]; omega
        have h3 : b - a = (b - (a + 1)) + 1 := by omega
        rw [if_pos h1, if_pos h2, if_neg hb, h3, List.getD_cons_succ]
      · have h2 : ¬ (a ≤ b ∧ b < a + (v :: t).length) := by simp only [List.length_cons]; omega
        rw [if_neg h1, if_neg h2, if_neg hb]

theorem memDraw_wf {m : Memory} (h : m.wf) (f : Nat → Byte) (a n : Nat) : Memory.wf (memDraw f m a n) := by
  induction n with
  | zero => exact h
  | succ n ih => exact memSet_wf ih _ _

/-- Drawn bytes (R270 to R272): the drawn range holds the draw, every other byte stays. -/
theorem memGet_memDraw {m : Memory} (h : m.wf) (f : Nat → Byte) (a n b : Nat) :
    memGet (memDraw f m a n) b = if a ≤ b ∧ b < a + n then f b else memGet m b := by
  induction n with
  | zero => simp [memDraw]
  | succ n ih =>
    rw [memDraw, memGet_memSet (memDraw_wf h f a n), ih]
    by_cases hb : b = a + n
    · subst hb; simp
    · by_cases h1 : a ≤ b ∧ b < a + n
      · have h2 : a ≤ b ∧ b < a + (n + 1) := by omega
        rw [if_neg hb, if_pos h1, if_pos h2]
      · have h2 : ¬ (a ≤ b ∧ b < a + (n + 1)) := by omega
        rw [if_neg hb, if_neg h1, if_neg h2]

/-- No memory operation lists an offset beyond a bound that holds the old offsets and the written ones. -/
theorem memSet_bound {m : Memory} {n a : Nat} {v : Byte} (h : ∀ c ∈ m, c.1 < n) (ha : a < n) : ∀ c ∈ memSet m a v, c.1 < n := by
  intro c hc
  rcases mem_memSet hc with hc | ⟨hc, -⟩
  · exact h c hc
  · rw [hc]; exact ha

theorem memProg_bound {m : Memory} {n a : Nat} {d : Bytes} (h : ∀ c ∈ m, c.1 < n) (ha : a + d.length ≤ n) :
    ∀ c ∈ memProg m a d, c.1 < n := by
  induction d generalizing m a with
  | nil => exact h
  | cons v t ih =>
    simp only [List.length_cons] at ha
    exact ih (memSet_bound h (by omega)) (by omega)

theorem memDraw_bound {m : Memory} {n a k : Nat} {f : Nat → Byte} (h : ∀ c ∈ m, c.1 < n) (ha : a + k ≤ n) :
    ∀ c ∈ memDraw f m a k, c.1 < n := by
  induction k with
  | zero => exact h
  | succ k ih => exact memSet_bound (ih (by omega)) (by omega)

/-- After an erase every byte is 0xFF (R254). -/
@[simp] theorem memGet_memErase (m : Memory) (a : Nat) : memGet (memErase m) a = erasedByte := rfl

theorem memErase_wf (m : Memory) : Memory.wf (memErase m) := wf_nil

/-- A byte that is not erased is listed. -/
theorem mem_of_memGet_ne {m : Memory} {a : Nat} (h : memGet m a ≠ erasedByte) : ∃ c ∈ m, c.1 = a := by
  induction m with
  | nil => exact absurd rfl h
  | cons d t ih =>
    obtain ⟨k, b⟩ := d
    by_cases hk : k = a
    · exact ⟨(k, b), by simp, hk⟩
    · simp only [memGet, if_neg hk] at h
      obtain ⟨c, hc, hca⟩ := ih h
      exact ⟨c, by simp [hc], hca⟩

/-- The scan looks at every byte of the prefix (R241), on any list. -/
theorem scanDirty_iff (m : Memory) (n : Nat) : scanDirty m n = true ↔ ∃ a, a < n ∧ memGet m a ≠ erasedByte := by
  simp only [scanDirty, List.any_eq_true, Bool.and_eq_true, decide_eq_true_eq]
  constructor
  · rintro ⟨c, -, h1, h2⟩; exact ⟨c.1, h1, h2⟩
  · rintro ⟨a, h1, h2⟩
    obtain ⟨c, hc, rfl⟩ := mem_of_memGet_ne h2
    exact ⟨c, hc, h1, h2⟩

end Sys2Proof.Machine
end

