-- ==== Sys2Proof/Laws/State.lean ====
section
/-! SUPPORT. One lemma per field and update of `State`, each true by `rfl`, so that no later proof unfolds a setter. -/

namespace Sys2Proof.Machine

@[simp] theorem State.setDec_cfg (s : State) (d : Dec) : (s.setDec d).cfg = s.cfg := rfl
@[simp] theorem State.setDec_dec (s : State) (d : Dec) : (s.setDec d).dec = d := rfl
@[simp] theorem State.setDec_ctx (s : State) (d : Dec) : (s.setDec d).ctx = s.ctx := rfl
@[simp] theorem State.setDec_fl (s : State) (d : Dec) : (s.setDec d).fl = s.fl := rfl
@[simp] theorem State.setDec_wdg (s : State) (d : Dec) : (s.setDec d).wdg = s.wdg := rfl
@[simp] theorem State.setDec_hf (s : State) (d : Dec) : (s.setDec d).hf = s.hf := rfl
@[simp] theorem State.setDec_ret (s : State) (d : Dec) : (s.setDec d).ret = s.ret := rfl
@[simp] theorem State.setDec_tx (s : State) (d : Dec) : (s.setDec d).tx = s.tx := rfl
@[simp] theorem State.setDec_decOut (s : State) (d : Dec) : (s.setDec d).decOut = s.decOut := rfl
@[simp] theorem State.setDec_log (s : State) (d : Dec) : (s.setDec d).log = s.log := rfl
@[simp] theorem State.setDec_resets (s : State) (d : Dec) : (s.setDec d).resets = s.resets := rfl
@[simp] theorem State.setDec_boot (s : State) (d : Dec) : (s.setDec d).boot = s.boot := rfl
@[simp] theorem State.setDec_port (s : State) (d : Dec) : (s.setDec d).port = s.port := rfl
@[simp] theorem State.setDec_runs (s : State) (d : Dec) : (s.setDec d).runs = s.runs := rfl
@[simp] theorem State.setDec_draws (s : State) (d : Dec) : (s.setDec d).draws = s.draws := rfl

@[simp] theorem State.setCtx_cfg (s : State) (c : Ctx) : (s.setCtx c).cfg = s.cfg := rfl
@[simp] theorem State.setCtx_dec (s : State) (c : Ctx) : (s.setCtx c).dec = s.dec := rfl
@[simp] theorem State.setCtx_ctx (s : State) (c : Ctx) : (s.setCtx c).ctx = c := rfl
@[simp] theorem State.setCtx_fl (s : State) (c : Ctx) : (s.setCtx c).fl = s.fl := rfl
@[simp] theorem State.setCtx_wdg (s : State) (c : Ctx) : (s.setCtx c).wdg = s.wdg := rfl
@[simp] theorem State.setCtx_hf (s : State) (c : Ctx) : (s.setCtx c).hf = s.hf := rfl
@[simp] theorem State.setCtx_ret (s : State) (c : Ctx) : (s.setCtx c).ret = s.ret := rfl
@[simp] theorem State.setCtx_tx (s : State) (c : Ctx) : (s.setCtx c).tx = s.tx := rfl
@[simp] theorem State.setCtx_decOut (s : State) (c : Ctx) : (s.setCtx c).decOut = s.decOut := rfl
@[simp] theorem State.setCtx_log (s : State) (c : Ctx) : (s.setCtx c).log = s.log := rfl
@[simp] theorem State.setCtx_resets (s : State) (c : Ctx) : (s.setCtx c).resets = s.resets := rfl
@[simp] theorem State.setCtx_boot (s : State) (c : Ctx) : (s.setCtx c).boot = s.boot := rfl
@[simp] theorem State.setCtx_port (s : State) (c : Ctx) : (s.setCtx c).port = s.port := rfl
@[simp] theorem State.setCtx_runs (s : State) (c : Ctx) : (s.setCtx c).runs = s.runs := rfl
@[simp] theorem State.setCtx_draws (s : State) (c : Ctx) : (s.setCtx c).draws = s.draws := rfl

@[simp] theorem State.setFl_cfg (s : State) (f : Fl) : (s.setFl f).cfg = s.cfg := rfl
@[simp] theorem State.setFl_dec (s : State) (f : Fl) : (s.setFl f).dec = s.dec := rfl
@[simp] theorem State.setFl_ctx (s : State) (f : Fl) : (s.setFl f).ctx = s.ctx := rfl
@[simp] theorem State.setFl_fl (s : State) (f : Fl) : (s.setFl f).fl = f := rfl
@[simp] theorem State.setFl_wdg (s : State) (f : Fl) : (s.setFl f).wdg = s.wdg := rfl
@[simp] theorem State.setFl_hf (s : State) (f : Fl) : (s.setFl f).hf = s.hf := rfl
@[simp] theorem State.setFl_ret (s : State) (f : Fl) : (s.setFl f).ret = s.ret := rfl
@[simp] theorem State.setFl_tx (s : State) (f : Fl) : (s.setFl f).tx = s.tx := rfl
@[simp] theorem State.setFl_decOut (s : State) (f : Fl) : (s.setFl f).decOut = s.decOut := rfl
@[simp] theorem State.setFl_log (s : State) (f : Fl) : (s.setFl f).log = s.log := rfl
@[simp] theorem State.setFl_resets (s : State) (f : Fl) : (s.setFl f).resets = s.resets := rfl
@[simp] theorem State.setFl_boot (s : State) (f : Fl) : (s.setFl f).boot = s.boot := rfl
@[simp] theorem State.setFl_port (s : State) (f : Fl) : (s.setFl f).port = s.port := rfl
@[simp] theorem State.setFl_runs (s : State) (f : Fl) : (s.setFl f).runs = s.runs := rfl
@[simp] theorem State.setFl_draws (s : State) (f : Fl) : (s.setFl f).draws = s.draws := rfl

@[simp] theorem State.setWdg_cfg (s : State) (w : Wdg) : (s.setWdg w).cfg = s.cfg := rfl
@[simp] theorem State.setWdg_dec (s : State) (w : Wdg) : (s.setWdg w).dec = s.dec := rfl
@[simp] theorem State.setWdg_ctx (s : State) (w : Wdg) : (s.setWdg w).ctx = s.ctx := rfl
@[simp] theorem State.setWdg_fl (s : State) (w : Wdg) : (s.setWdg w).fl = s.fl := rfl
@[simp] theorem State.setWdg_wdg (s : State) (w : Wdg) : (s.setWdg w).wdg = w := rfl
@[simp] theorem State.setWdg_hf (s : State) (w : Wdg) : (s.setWdg w).hf = s.hf := rfl
@[simp] theorem State.setWdg_ret (s : State) (w : Wdg) : (s.setWdg w).ret = s.ret := rfl
@[simp] theorem State.setWdg_tx (s : State) (w : Wdg) : (s.setWdg w).tx = s.tx := rfl
@[simp] theorem State.setWdg_decOut (s : State) (w : Wdg) : (s.setWdg w).decOut = s.decOut := rfl
@[simp] theorem State.setWdg_log (s : State) (w : Wdg) : (s.setWdg w).log = s.log := rfl
@[simp] theorem State.setWdg_resets (s : State) (w : Wdg) : (s.setWdg w).resets = s.resets := rfl
@[simp] theorem State.setWdg_boot (s : State) (w : Wdg) : (s.setWdg w).boot = s.boot := rfl
@[simp] theorem State.setWdg_port (s : State) (w : Wdg) : (s.setWdg w).port = s.port := rfl
@[simp] theorem State.setWdg_runs (s : State) (w : Wdg) : (s.setWdg w).runs = s.runs := rfl
@[simp] theorem State.setWdg_draws (s : State) (w : Wdg) : (s.setWdg w).draws = s.draws := rfl

@[simp] theorem State.setHf_cfg (s : State) (h : Hf) : (s.setHf h).cfg = s.cfg := rfl
@[simp] theorem State.setHf_dec (s : State) (h : Hf) : (s.setHf h).dec = s.dec := rfl
@[simp] theorem State.setHf_ctx (s : State) (h : Hf) : (s.setHf h).ctx = s.ctx := rfl
@[simp] theorem State.setHf_fl (s : State) (h : Hf) : (s.setHf h).fl = s.fl := rfl
@[simp] theorem State.setHf_wdg (s : State) (h : Hf) : (s.setHf h).wdg = s.wdg := rfl
@[simp] theorem State.setHf_hf (s : State) (h : Hf) : (s.setHf h).hf = h := rfl
@[simp] theorem State.setHf_ret (s : State) (h : Hf) : (s.setHf h).ret = s.ret := rfl
@[simp] theorem State.setHf_tx (s : State) (h : Hf) : (s.setHf h).tx = s.tx := rfl
@[simp] theorem State.setHf_decOut (s : State) (h : Hf) : (s.setHf h).decOut = s.decOut := rfl
@[simp] theorem State.setHf_log (s : State) (h : Hf) : (s.setHf h).log = s.log := rfl
@[simp] theorem State.setHf_resets (s : State) (h : Hf) : (s.setHf h).resets = s.resets := rfl
@[simp] theorem State.setHf_boot (s : State) (h : Hf) : (s.setHf h).boot = s.boot := rfl
@[simp] theorem State.setHf_port (s : State) (h : Hf) : (s.setHf h).port = s.port := rfl
@[simp] theorem State.setHf_runs (s : State) (h : Hf) : (s.setHf h).runs = s.runs := rfl
@[simp] theorem State.setHf_draws (s : State) (h : Hf) : (s.setHf h).draws = s.draws := rfl

@[simp] theorem State.setRet_cfg (s : State) (r : Result) : (s.setRet r).cfg = s.cfg := rfl
@[simp] theorem State.setRet_dec (s : State) (r : Result) : (s.setRet r).dec = s.dec := rfl
@[simp] theorem State.setRet_ctx (s : State) (r : Result) : (s.setRet r).ctx = s.ctx := rfl
@[simp] theorem State.setRet_fl (s : State) (r : Result) : (s.setRet r).fl = s.fl := rfl
@[simp] theorem State.setRet_wdg (s : State) (r : Result) : (s.setRet r).wdg = s.wdg := rfl
@[simp] theorem State.setRet_hf (s : State) (r : Result) : (s.setRet r).hf = s.hf := rfl
@[simp] theorem State.setRet_ret (s : State) (r : Result) : (s.setRet r).ret = r := rfl
@[simp] theorem State.setRet_tx (s : State) (r : Result) : (s.setRet r).tx = s.tx := rfl
@[simp] theorem State.setRet_decOut (s : State) (r : Result) : (s.setRet r).decOut = s.decOut := rfl
@[simp] theorem State.setRet_log (s : State) (r : Result) : (s.setRet r).log = s.log := rfl
@[simp] theorem State.setRet_resets (s : State) (r : Result) : (s.setRet r).resets = s.resets := rfl
@[simp] theorem State.setRet_boot (s : State) (r : Result) : (s.setRet r).boot = s.boot := rfl
@[simp] theorem State.setRet_port (s : State) (r : Result) : (s.setRet r).port = s.port := rfl
@[simp] theorem State.setRet_runs (s : State) (r : Result) : (s.setRet r).runs = s.runs := rfl
@[simp] theorem State.setRet_draws (s : State) (r : Result) : (s.setRet r).draws = s.draws := rfl

@[simp] theorem State.setPort_cfg (s : State) (p : List Request) : (s.setPort p).cfg = s.cfg := rfl
@[simp] theorem State.setPort_dec (s : State) (p : List Request) : (s.setPort p).dec = s.dec := rfl
@[simp] theorem State.setPort_ctx (s : State) (p : List Request) : (s.setPort p).ctx = s.ctx := rfl
@[simp] theorem State.setPort_fl (s : State) (p : List Request) : (s.setPort p).fl = s.fl := rfl
@[simp] theorem State.setPort_wdg (s : State) (p : List Request) : (s.setPort p).wdg = s.wdg := rfl
@[simp] theorem State.setPort_hf (s : State) (p : List Request) : (s.setPort p).hf = s.hf := rfl
@[simp] theorem State.setPort_ret (s : State) (p : List Request) : (s.setPort p).ret = s.ret := rfl
@[simp] theorem State.setPort_tx (s : State) (p : List Request) : (s.setPort p).tx = s.tx := rfl
@[simp] theorem State.setPort_decOut (s : State) (p : List Request) : (s.setPort p).decOut = s.decOut := rfl
@[simp] theorem State.setPort_log (s : State) (p : List Request) : (s.setPort p).log = s.log := rfl
@[simp] theorem State.setPort_resets (s : State) (p : List Request) : (s.setPort p).resets = s.resets := rfl
@[simp] theorem State.setPort_boot (s : State) (p : List Request) : (s.setPort p).boot = s.boot := rfl
@[simp] theorem State.setPort_port (s : State) (p : List Request) : (s.setPort p).port = p := rfl
@[simp] theorem State.setPort_runs (s : State) (p : List Request) : (s.setPort p).runs = s.runs := rfl
@[simp] theorem State.setPort_draws (s : State) (p : List Request) : (s.setPort p).draws = s.draws := rfl

@[simp] theorem State.setBoot_cfg (s : State) (b : BootStep) : (s.setBoot b).cfg = s.cfg := rfl
@[simp] theorem State.setBoot_dec (s : State) (b : BootStep) : (s.setBoot b).dec = s.dec := rfl
@[simp] theorem State.setBoot_ctx (s : State) (b : BootStep) : (s.setBoot b).ctx = s.ctx := rfl
@[simp] theorem State.setBoot_fl (s : State) (b : BootStep) : (s.setBoot b).fl = s.fl := rfl
@[simp] theorem State.setBoot_wdg (s : State) (b : BootStep) : (s.setBoot b).wdg = s.wdg := rfl
@[simp] theorem State.setBoot_hf (s : State) (b : BootStep) : (s.setBoot b).hf = s.hf := rfl
@[simp] theorem State.setBoot_ret (s : State) (b : BootStep) : (s.setBoot b).ret = s.ret := rfl
@[simp] theorem State.setBoot_tx (s : State) (b : BootStep) : (s.setBoot b).tx = s.tx := rfl
@[simp] theorem State.setBoot_decOut (s : State) (b : BootStep) : (s.setBoot b).decOut = s.decOut := rfl
@[simp] theorem State.setBoot_log (s : State) (b : BootStep) : (s.setBoot b).log = s.log := rfl
@[simp] theorem State.setBoot_resets (s : State) (b : BootStep) : (s.setBoot b).resets = s.resets := rfl
@[simp] theorem State.setBoot_boot (s : State) (b : BootStep) : (s.setBoot b).boot = b := rfl
@[simp] theorem State.setBoot_port (s : State) (b : BootStep) : (s.setBoot b).port = s.port := rfl
@[simp] theorem State.setBoot_runs (s : State) (b : BootStep) : (s.setBoot b).runs = s.runs := rfl
@[simp] theorem State.setBoot_draws (s : State) (b : BootStep) : (s.setBoot b).draws = s.draws := rfl

@[simp] theorem State.emitTx_cfg (s : State) (b : Bytes) : (s.emitTx b).cfg = s.cfg := rfl
@[simp] theorem State.emitTx_dec (s : State) (b : Bytes) : (s.emitTx b).dec = s.dec := rfl
@[simp] theorem State.emitTx_ctx (s : State) (b : Bytes) : (s.emitTx b).ctx = s.ctx := rfl
@[simp] theorem State.emitTx_fl (s : State) (b : Bytes) : (s.emitTx b).fl = s.fl := rfl
@[simp] theorem State.emitTx_wdg (s : State) (b : Bytes) : (s.emitTx b).wdg = s.wdg := rfl
@[simp] theorem State.emitTx_hf (s : State) (b : Bytes) : (s.emitTx b).hf = s.hf := rfl
@[simp] theorem State.emitTx_ret (s : State) (b : Bytes) : (s.emitTx b).ret = s.ret := rfl
@[simp] theorem State.emitTx_tx (s : State) (b : Bytes) : (s.emitTx b).tx = s.tx ++ b := rfl
@[simp] theorem State.emitTx_decOut (s : State) (b : Bytes) : (s.emitTx b).decOut = s.decOut := rfl
@[simp] theorem State.emitTx_log (s : State) (b : Bytes) : (s.emitTx b).log = s.log := rfl
@[simp] theorem State.emitTx_resets (s : State) (b : Bytes) : (s.emitTx b).resets = s.resets := rfl
@[simp] theorem State.emitTx_boot (s : State) (b : Bytes) : (s.emitTx b).boot = s.boot := rfl
@[simp] theorem State.emitTx_port (s : State) (b : Bytes) : (s.emitTx b).port = s.port := rfl
@[simp] theorem State.emitTx_runs (s : State) (b : Bytes) : (s.emitTx b).runs = s.runs := rfl
@[simp] theorem State.emitTx_draws (s : State) (b : Bytes) : (s.emitTx b).draws = s.draws := rfl

@[simp] theorem State.emitDec_cfg (s : State) (d : DecOut) : (s.emitDec d).cfg = s.cfg := rfl
@[simp] theorem State.emitDec_dec (s : State) (d : DecOut) : (s.emitDec d).dec = s.dec := rfl
@[simp] theorem State.emitDec_ctx (s : State) (d : DecOut) : (s.emitDec d).ctx = s.ctx := rfl
@[simp] theorem State.emitDec_fl (s : State) (d : DecOut) : (s.emitDec d).fl = s.fl := rfl
@[simp] theorem State.emitDec_wdg (s : State) (d : DecOut) : (s.emitDec d).wdg = s.wdg := rfl
@[simp] theorem State.emitDec_hf (s : State) (d : DecOut) : (s.emitDec d).hf = s.hf := rfl
@[simp] theorem State.emitDec_ret (s : State) (d : DecOut) : (s.emitDec d).ret = s.ret := rfl
@[simp] theorem State.emitDec_tx (s : State) (d : DecOut) : (s.emitDec d).tx = s.tx := rfl
@[simp] theorem State.emitDec_decOut (s : State) (d : DecOut) : (s.emitDec d).decOut = s.decOut ++ [d] := rfl
@[simp] theorem State.emitDec_log (s : State) (d : DecOut) : (s.emitDec d).log = s.log := rfl
@[simp] theorem State.emitDec_resets (s : State) (d : DecOut) : (s.emitDec d).resets = s.resets := rfl
@[simp] theorem State.emitDec_boot (s : State) (d : DecOut) : (s.emitDec d).boot = s.boot := rfl
@[simp] theorem State.emitDec_port (s : State) (d : DecOut) : (s.emitDec d).port = s.port := rfl
@[simp] theorem State.emitDec_runs (s : State) (d : DecOut) : (s.emitDec d).runs = s.runs := rfl
@[simp] theorem State.emitDec_draws (s : State) (d : DecOut) : (s.emitDec d).draws = s.draws := rfl

@[simp] theorem State.emitLog_cfg (s : State) (e : LogEvent) : (s.emitLog e).cfg = s.cfg := rfl
@[simp] theorem State.emitLog_dec (s : State) (e : LogEvent) : (s.emitLog e).dec = s.dec := rfl
@[simp] theorem State.emitLog_ctx (s : State) (e : LogEvent) : (s.emitLog e).ctx = s.ctx := rfl
@[simp] theorem State.emitLog_fl (s : State) (e : LogEvent) : (s.emitLog e).fl = s.fl := rfl
@[simp] theorem State.emitLog_wdg (s : State) (e : LogEvent) : (s.emitLog e).wdg = s.wdg := rfl
@[simp] theorem State.emitLog_hf (s : State) (e : LogEvent) : (s.emitLog e).hf = s.hf := rfl
@[simp] theorem State.emitLog_ret (s : State) (e : LogEvent) : (s.emitLog e).ret = s.ret := rfl
@[simp] theorem State.emitLog_tx (s : State) (e : LogEvent) : (s.emitLog e).tx = s.tx := rfl
@[simp] theorem State.emitLog_decOut (s : State) (e : LogEvent) : (s.emitLog e).decOut = s.decOut := rfl
@[simp] theorem State.emitLog_log (s : State) (e : LogEvent) : (s.emitLog e).log = s.log ++ [e] := rfl
@[simp] theorem State.emitLog_resets (s : State) (e : LogEvent) : (s.emitLog e).resets = s.resets := rfl
@[simp] theorem State.emitLog_boot (s : State) (e : LogEvent) : (s.emitLog e).boot = s.boot := rfl
@[simp] theorem State.emitLog_port (s : State) (e : LogEvent) : (s.emitLog e).port = s.port := rfl
@[simp] theorem State.emitLog_runs (s : State) (e : LogEvent) : (s.emitLog e).runs = s.runs := rfl
@[simp] theorem State.emitLog_draws (s : State) (e : LogEvent) : (s.emitLog e).draws = s.draws := rfl

@[simp] theorem State.emitReset_cfg (s : State) (c : Cause) : (s.emitReset c).cfg = s.cfg := rfl
@[simp] theorem State.emitReset_dec (s : State) (c : Cause) : (s.emitReset c).dec = s.dec := rfl
@[simp] theorem State.emitReset_ctx (s : State) (c : Cause) : (s.emitReset c).ctx = s.ctx := rfl
@[simp] theorem State.emitReset_fl (s : State) (c : Cause) : (s.emitReset c).fl = s.fl := rfl
@[simp] theorem State.emitReset_wdg (s : State) (c : Cause) : (s.emitReset c).wdg = s.wdg := rfl
@[simp] theorem State.emitReset_hf (s : State) (c : Cause) : (s.emitReset c).hf = s.hf := rfl
@[simp] theorem State.emitReset_ret (s : State) (c : Cause) : (s.emitReset c).ret = s.ret := rfl
@[simp] theorem State.emitReset_tx (s : State) (c : Cause) : (s.emitReset c).tx = s.tx := rfl
@[simp] theorem State.emitReset_decOut (s : State) (c : Cause) : (s.emitReset c).decOut = s.decOut := rfl
@[simp] theorem State.emitReset_log (s : State) (c : Cause) : (s.emitReset c).log = s.log := rfl
@[simp] theorem State.emitReset_resets (s : State) (c : Cause) : (s.emitReset c).resets = s.resets ++ [c] := rfl
@[simp] theorem State.emitReset_boot (s : State) (c : Cause) : (s.emitReset c).boot = s.boot := rfl
@[simp] theorem State.emitReset_port (s : State) (c : Cause) : (s.emitReset c).port = s.port := rfl
@[simp] theorem State.emitReset_runs (s : State) (c : Cause) : (s.emitReset c).runs = s.runs := rfl
@[simp] theorem State.emitReset_draws (s : State) (c : Cause) : (s.emitReset c).draws = s.draws := rfl

@[simp] theorem State.countDraw_cfg (s : State) : (s.countDraw).cfg = s.cfg := rfl
@[simp] theorem State.countDraw_dec (s : State) : (s.countDraw).dec = s.dec := rfl
@[simp] theorem State.countDraw_ctx (s : State) : (s.countDraw).ctx = s.ctx := rfl
@[simp] theorem State.countDraw_fl (s : State) : (s.countDraw).fl = s.fl := rfl
@[simp] theorem State.countDraw_wdg (s : State) : (s.countDraw).wdg = s.wdg := rfl
@[simp] theorem State.countDraw_hf (s : State) : (s.countDraw).hf = s.hf := rfl
@[simp] theorem State.countDraw_ret (s : State) : (s.countDraw).ret = s.ret := rfl
@[simp] theorem State.countDraw_tx (s : State) : (s.countDraw).tx = s.tx := rfl
@[simp] theorem State.countDraw_decOut (s : State) : (s.countDraw).decOut = s.decOut := rfl
@[simp] theorem State.countDraw_log (s : State) : (s.countDraw).log = s.log := rfl
@[simp] theorem State.countDraw_resets (s : State) : (s.countDraw).resets = s.resets := rfl
@[simp] theorem State.countDraw_boot (s : State) : (s.countDraw).boot = s.boot := rfl
@[simp] theorem State.countDraw_port (s : State) : (s.countDraw).port = s.port := rfl
@[simp] theorem State.countDraw_runs (s : State) : (s.countDraw).runs = s.runs := rfl
@[simp] theorem State.countDraw_draws (s : State) : (s.countDraw).draws = s.draws + 1 := rfl

end Sys2Proof.Machine
end

