-- ==== Sys2Proof/Laws/Ops.lean ====
section
/-! SUPPORT. For each shared operation, once, everything it can do: the `raise` of an error, a decoder step, a dispatch, a received
fragment, a reset, a tick, a phase's guard, and how a step of the block comes to run an instruction. -/

namespace Sys2Proof.Machine

/-! ## Errors -/

/-- A frame error leaves the decoder's baseline and its report. -/
theorem raiseError_frame {e : ErrorName} (h : errorFamily e = .frame) (s : State) : raiseError e s = frameErrorState e s := by
  cases e <;> first | rfl | cases h

/-- The errors that change no unit. -/
theorem raiseError_dropped {e : ErrorName}
    (h : e = .malformedHeader ∨ e = .reassemblyBusy ∨ e = .unknownCommand ∨ e = .notClean) (s : State) :
    raiseError e s = droppedState e s := by
  rcases h with rfl | rfl | rfl | rfl <;> rfl

theorem raiseError_fragmentOutOfOrder (s : State) :
    raiseError .fragmentOutOfOrder s = droppedState .fragmentOutOfOrder (s.setCtx { s.ctx with active := false }) := rfl

/-- A failed flash operation leaves the controller locked. -/
theorem raiseError_flashFailed {e : ErrorName} (h : e = .eraseFailed ∨ e = .programFailed) (s : State) :
    raiseError e s = droppedState e (s.setFl (lockedFl s.fl)) := by
  rcases h with rfl | rfl <;> rfl

@[simp] theorem lockedFl_lockedFl (f : Fl) : lockedFl (lockedFl f) = lockedFl f := rfl

/-- A row of the error codes that runs is its operation, and returned its error. -/
theorem whenRaised_next {e : ErrorName} {o : Host.Outcome State Fault Refusal} {t : State} (h : whenRaised e o = .next t) :
    o = .next t ∧ t.ret = .err e := by
  unfold whenRaised at h
  split at h
  · split at h
    · cases h; exact ⟨rfl, ‹_›⟩
    · cases h
  all_goals cases h

/-! ## The decoder -/

/-- The classes of R92, in the constants' names: a proof rewrites a literal byte to its constant and then its class. -/
theorem classify_flagByte : classify flagByte = .flag := rfl

theorem classify_escByte : classify escByte = .esc := rfl

theorem classify_data {b : Byte} (h : b ≠ flagByte) (h2 : b ≠ escByte) : classify b = .data := by
  unfold classify; rw [if_neg h, if_neg h2]

theorem classify_not_flag {b : Byte} (h : b ≠ flagByte) : classify b = .data ∨ classify b = .esc := by
  by_cases h2 : b = escByte
  · exact .inr (h2 ▸ rfl)
  · exact .inl (classify_data h h2)

/-- `Append` (R157, R160). -/
theorem decAppend_cases (v : Byte) (s : State) :
    (s.dec.acc.length = s.cfg.maxBody ∧ decAppend v s = frameErrorState .overflow s) ∨
    (s.dec.acc.length ≠ s.cfg.maxBody ∧
      decAppend v s = { s with dec := { st := .inFrame, acc := s.dec.acc ++ [v] }, ret := .nothing }) := by
  unfold decAppend
  split
  · exact .inl ⟨‹_›, rfl⟩
  · exact .inr ⟨‹_›, rfl⟩

/-- `Complete` (R161 to R164). -/
theorem decComplete_cases (body : Bytes) (s : State) :
    (body.length < 2 ∧ decComplete body s = frameErrorState .truncated s) ∨
    (2 ≤ body.length ∧ s.cfg.useCrc = true ∧ crcVerifies body = false ∧ decComplete body s = frameErrorState .crcMismatch s) ∨
    (2 ≤ body.length ∧ (s.cfg.useCrc = true → crcVerifies body = true) ∧
      decComplete body s =
        { s with ret := .frame (bodyPayload body), decOut := s.decOut ++ [.frame (bodyPayload body)] }) := by
  unfold decComplete
  split
  · exact .inl ⟨‹_›, rfl⟩
  · split
    · next h1 h2 =>
      simp only [Bool.and_eq_true, Bool.not_eq_true'] at h2
      exact .inr (.inl ⟨by omega, h2.1, h2.2, rfl⟩)
    · next h1 h2 =>
      simp only [Bool.and_eq_true, Bool.not_eq_true', not_and, Bool.not_eq_false] at h2
      exact .inr (.inr ⟨by omega, h2, rfl⟩)

/-- Everything a decoder step can do: a new decoder state and nothing to report; a frame error; a delivered frame. -/
theorem push_cases (b : Byte) (s : State) :
    (∃ d : Dec, push b s = { s with dec := d, ret := .nothing } ∧ (DecSafe s → DecSafe { s with dec := d })) ∨
    (∃ e, errorFamily e = .frame ∧ push b s = frameErrorState e s) ∨
    (∃ p, push b s = { s with dec := Dec.reset, ret := .frame p, decOut := s.decOut ++ [.frame p] }) := by
  have happend (v : Byte) :
      (∃ d : Dec, decAppend v s = { s with dec := d, ret := .nothing } ∧ (DecSafe s → DecSafe { s with dec := d })) ∨
      (∃ e, errorFamily e = .frame ∧ decAppend v s = frameErrorState e s) ∨
      (∃ p, decAppend v s = { s with dec := Dec.reset, ret := .frame p, decOut := s.decOut ++ [.frame p] }) := by
    rcases decAppend_cases v s with ⟨-, h⟩ | ⟨hn, h⟩
    · exact .inr (.inl ⟨_, rfl, h⟩)
    · refine .inl ⟨_, h, fun hs => ⟨?_, by simp⟩⟩
      have := hs.1
      simp only [List.length_append, List.length_singleton]
      omega
  unfold push
  split
  · split
    · exact .inl ⟨{ st := .inFrame, acc := [] }, rfl, fun _ => ⟨by simp, by simp⟩⟩
    all_goals exact .inl ⟨s.dec, rfl, id⟩
  · split
    · split
      · exact .inl ⟨s.dec, rfl, id⟩
      · rcases decComplete_cases s.dec.acc (s.setDec Dec.reset) with ⟨-, h⟩ | ⟨-, -, -, h⟩ | ⟨-, -, h⟩
        · exact .inr (.inl ⟨_, rfl, h⟩)
        · exact .inr (.inl ⟨_, rfl, h⟩)
        · exact .inr (.inr ⟨_, h⟩)
    · exact .inl ⟨{ s.dec with st := .escaped }, rfl, fun hs => ⟨hs.1, by simp⟩⟩
    · exact happend b
  · split
    · exact .inr (.inl ⟨_, rfl, rfl⟩)
    all_goals exact happend _

/-- A cell runs its step or is refused. -/
theorem whenSelected_next {b : Bool} {s t : State} (h : whenSelected b s = .next t) : b = true ∧ t = s := by
  unfold whenSelected at h
  split at h
  · cases h; exact ⟨‹_›, rfl⟩
  · cases h

/-! ## The message layer -/

/-- MSG.SEND only sends. -/
theorem sendMessage_next {command : Half} {id : Byte} {payload : Bytes} {s t : State}
    (h : sendMessage command id payload s = .next t) :
    fragCount payload.length ≤ 65535 ∧ t = { s with tx := s.tx ++ messageFrames s.cfg command id payload, ret := .ok } := by
  unfold sendMessage at h
  split at h
  · cases h; exact ⟨‹_›, rfl⟩
  · cases h

/-- A dispatch reports, sends, or drops: it changes no unit. -/
theorem dispatch_next {command : Half} {id : Byte} {data : Bytes} {s t : State} (h : dispatch command id data s = .next t) :
    ∃ (tx : Bytes) (r : Result) (log : List LogEvent), t = { s with tx := tx, ret := r, log := log } := by
  unfold dispatch at h
  split at h
  · cases h; exact ⟨s.tx, _, s.log, rfl⟩
  split at h
  · cases h; exact ⟨s.tx, _, s.log, rfl⟩
  split at h
  · exact ⟨_, _, s.log, (sendMessage_next h).2⟩
  split at h
  · cases h; exact ⟨s.tx, _, s.log, rfl⟩
  · cases h; exact ⟨s.tx, _, _, rfl⟩

/-- Dispatch is the row of the command's code. -/
theorem dispatch_eq_exec (command : Half) (id : Byte) (data : Bytes) (s : State) :
    dispatch command id data s = exec (readCommandCode command id data) s := by
  unfold readCommandCode
  split
  · next h => subst h; rfl
  split
  · next h => subst h; rfl
  split
  · next h => subst h; rfl
  split
  · next h => subst h; rfl
  · rfl

/-- An expected fragment: the context grows, or is released and the message dispatched. -/
theorem storeFragment_next {data : Bytes} {s t : State} (h : storeFragment data s = .next t) :
    (contextComplete (extended s.ctx data) = false ∧ t = { s with ctx := extended s.ctx data, ret := .nothing }) ∨
    (contextComplete (extended s.ctx data) = true ∧ ∃ (tx : Bytes) (r : Result) (log : List LogEvent),
      t = { s with ctx := { extended s.ctx data with active := false }, tx := tx, ret := r, log := log }) := by
  simp only [storeFragment] at h
  split at h
  · obtain ⟨tx, r, log, h⟩ := dispatch_next h
    exact .inr ⟨‹_›, tx, r, log, h⟩
  · next hc => cases h; exact .inl ⟨by simpa using hc, rfl⟩

/-- The fragment of the context's message: released on a mismatch, else stored. -/
theorem matchFragment_next {h : Header} {s t : State} (hn : matchFragment h s = .next t) :
    (t = droppedState .fragmentOutOfOrder { s with ctx := { s.ctx with active := false } }) ∨
    (h.count = s.ctx.count ∧ h.index = s.ctx.nextIdx ∧ storeFragment h.data s = .next t) := by
  unfold matchFragment at hn
  split at hn
  · cases hn; exact .inl rfl
  · next hm => exact .inr ⟨by tauto, by tauto, hn⟩

/-- What a received payload can change: the context, TX, the result and the log. -/
theorem receive_next {p : Bytes} {s t : State} (h : receive p s = .next t) :
    ∃ (c : Ctx) (tx : Bytes) (r : Result) (log : List LogEvent), t = { s with ctx := c, tx := tx, ret := r, log := log } := by
  have hstore {d : Bytes} {s t : State} (h : storeFragment d s = .next t) :
      ∃ (c : Ctx) (tx : Bytes) (r : Result) (log : List LogEvent), t = { s with ctx := c, tx := tx, ret := r, log := log } := by
    rcases storeFragment_next h with ⟨-, h⟩ | ⟨-, tx, r, log, h⟩
    · exact ⟨_, s.tx, _, s.log, h⟩
    · exact ⟨_, tx, r, log, h⟩
  have hmatch {d : Header} {s t : State} (h : matchFragment d s = .next t) :
      ∃ (c : Ctx) (tx : Bytes) (r : Result) (log : List LogEvent), t = { s with ctx := c, tx := tx, ret := r, log := log } := by
    rcases matchFragment_next h with h | ⟨-, -, h⟩
    · exact ⟨_, s.tx, _, _, h⟩
    · exact hstore h
  have hraise (e : ErrorName) (he : e = .malformedHeader ∨ e = .reassemblyBusy ∨ e = .unknownCommand ∨ e = .notClean)
      (h : Host.Outcome.next (raiseError e s) = (Host.Outcome.next t : Host.Outcome State Fault Refusal)) :
      ∃ (c : Ctx) (tx : Bytes) (r : Result) (log : List LogEvent), t = { s with ctx := c, tx := tx, ret := r, log := log } := by
    cases h; exact ⟨s.ctx, s.tx, _, _, raiseError_dropped he s⟩
  unfold receive at h
  split at h
  · exact hraise _ (by simp) h
  split at h
  · unfold acceptFragment at h
    split at h
    · obtain ⟨tx, r, log, h⟩ := dispatch_next h
      exact ⟨s.ctx, tx, r, log, h⟩
    split at h
    · split at h
      · cases h; exact ⟨_, s.tx, _, _, rfl⟩
      split at h
      · exact hraise _ (by simp) h
      · obtain ⟨c, tx, r, log, h⟩ := hmatch h
        exact ⟨c, tx, r, log, h⟩
    split at h
    · exact hraise _ (by simp) h
    · exact hmatch h
  · exact hraise _ (by simp) h

/-- A header's own bytes are parsed back (R100, R101). -/
theorem parseHeader_headerBytes (command : Half) (id : Byte) (count index length : Half) (data : Bytes) :
    parseHeader (headerBytes command id count index length ++ data) =
      some { command := command, id := id, count := count, index := index, length := length, data := data } := by
  have hle (v : Half) : le16 (lo8 v) (hi8 v) = v := by
    simp only [le16, lo8, hi8]
    ext i hi
    simp only [BitVec.getElem_or, BitVec.getElem_setWidth, BitVec.getElem_shiftLeft, BitVec.getLsbD_setWidth,
      BitVec.getLsbD_ushiftRight]
    by_cases h8 : i < 8
    · simp [h8, BitVec.getLsbD_eq_getElem hi]
    · have : i - 8 < 8 := by omega
      simp [h8, this, show 8 + (i - 8) = i by omega, BitVec.getLsbD_eq_getElem hi]
  simp [headerBytes, parseHeader, hle]

/-! ## The flash unit -/

theorem whenFlIdle_next {s t : State} {k : Host.Outcome State Fault Refusal} (h : whenFlIdle s k = .next t) :
    s.fl.phase = .ready ∧ s.fl.op = .none ∧ k = .next t := by
  unfold whenFlIdle at h
  split at h
  · next hi => simp only [flIdle, Bool.and_eq_true, beq_iff_eq] at hi; exact ⟨hi.1, hi.2, h⟩
  · cases h

theorem whenEnabled_next {b : Bool} {s t : State} (h : whenEnabled b s = .next t) : b = true ∧ t = s := by
  unfold whenEnabled at h
  split at h
  · cases h; exact ⟨‹_›, rfl⟩
  · cases h

/-- The unlock sequence succeeds from a key port at rest (R251). -/
theorem unlockSequence_eq (p : Params) {f : Fl} (h : f.keystep = 0) :
    unlockSequence p f = some { f with keystep := 0, locked := false } := by
  simp [unlockSequence, writeKey, h]

/-- What an accepted unlock sequence changes. -/
theorem unlockSequence_some {p : Params} {f g : Fl} (h : unlockSequence p f = some g) :
    ∃ k, g = { f with keystep := k, locked := false } := by
  simp only [unlockSequence, writeKey, Option.bind_eq_some_iff] at h
  obtain ⟨x, h1, h2⟩ := h
  split at h1
  · cases h1
    simp at h2
    exact ⟨0, h2.symm⟩
  · split at h1
    · cases h1
      split at h2
      · simp_all only [Option.some.injEq]
        exact ⟨1, h2.symm⟩
      · split at h2
        · simp_all only [Option.some.injEq]
          exact ⟨1, h2.symm⟩
        · cases h2
    · cases h1

/-- What ends a sequence: locked, and the result or the error. -/
theorem finishFlash_eq (failure : Option ErrorName) (s : State)
    (h : failure = none ∨ failure = some .eraseFailed ∨ failure = some .programFailed) :
    finishFlash failure s =
      match failure with
      | none => { s with fl := lockedFl s.fl, ret := .ok }
      | some e => droppedState e { s with fl := lockedFl s.fl } := by
  rcases h with rfl | rfl | rfl <;> rfl

/-- FLC.LOCK: which sequence it ends, and with what result. -/
theorem execFlcLock_next {s t : State} (h : execFlcLock s = .next t) :
    (s.fl.phase = .eDone ∧ s.fl.complete = true ∧ t = finishFlash (if s.fl.err then some .eraseFailed else none) s) ∨
    (s.fl.phase = .wVerify ∧ t = finishFlash (if s.fl.failed then some .programFailed else none) s) ∨
    (s.fl.phase = .wMode ∧ s.fl.err = true ∧ s.fl.busy = false ∧ t = finishFlash (some .programFailed) s) := by
  unfold execFlcLock at h
  split at h
  · next hp =>
    split at h
    · next hc => cases h; exact .inl ⟨hp, hc, rfl⟩
    · cases h
  · next hp => cases h; exact .inr (.inl ⟨hp, rfl⟩)
  · next hp =>
    split at h
    · next hc =>
      cases h
      rw [Bool.and_eq_true, unitWaitOver, Bool.not_eq_true'] at hc
      exact .inr (.inr ⟨hp, hc.1, hc.2, rfl⟩)
    · cases h
  all_goals cases h

/-! ## Reset, watchdog, hardfault -/

/-- A reset draws at most once, and only the region's bytes and the draw count differ before the restart. -/
theorem cutFlash_cases (s : State) :
    cutFlash s = s ∨
    (s.fl.phase = .eBusy ∧
      cutFlash s = { s with
        fl := { s.fl with mem := memDraw (Config.drawByte s.draws) s.fl.mem 0 s.cfg.flashSize }, draws := s.draws + 1 }) ∨
    (∃ i, s.fl.phase = .wBusy i ∧
      cutFlash s = { s with
        fl := { s.fl with mem := memDraw (Config.drawByte s.draws) s.fl.mem (unitOffset s i) s.cfg.progUnit },
        draws := s.draws + 1 }) := by
  unfold cutFlash
  split
  · next h => exact .inr (.inl ⟨h, rfl⟩)
  · next i h => exact .inr (.inr ⟨i, h, rfl⟩)
  all_goals exact .inl rfl

/-- A reset, in one record: `m` and `n` are what `cutFlash` leaves. -/
theorem systemReset_eq (c : Cause) (s : State) :
    systemReset c s =
      { s with
        dec := Dec.reset, ctx := Ctx.reset, fl := Fl.reset (cutFlash s).fl.mem, wdg := Wdg.reset,
        hf := Hf.reset (keptRecord s.cfg c s.hf.record), ret := .nothing, resets := s.resets ++ [c], boot := .arm,
        port := s.runs.headD [], runs := s.runs.tail, draws := (cutFlash s).draws } := by
  rcases cutFlash_cases s with h | ⟨-, h⟩ | ⟨i, -, h⟩ <;> simp only [systemReset, restartRun, resetVolatile, State.emitReset, h]

/-- A reset keeps the region canonical and inside its size. -/
theorem cutFlash_wf {s : State} (h : s.fl.mem.wf) : (cutFlash s).fl.mem.wf := by
  rcases cutFlash_cases s with hc | ⟨-, hc⟩ | ⟨i, -, hc⟩
  · rw [hc]; exact h
  · rw [hc]; exact memDraw_wf h _ _ _
  · rw [hc]; exact memDraw_wf h _ _ _

theorem watchdogExpires_iff (s : State) :
    watchdogExpires s = true ↔ s.wdg.armed = true ∧ s.wdg.timeout ≤ s.wdg.cnt + 1 := by
  simp [watchdogExpires]

theorem sequencerAt_iff (p : HfPhase) (s : State) : sequencerAt p s = true ↔ s.hf.phase = p ∧ s.hf.stuck = false := by
  simp [sequencerAt]

/-- One tick: nothing, one more tick counted, or the reset. -/
theorem watchdogTick_cases (s : State) :
    (s.wdg.armed = false ∧ watchdogTick s = s) ∨
    (s.wdg.armed = true ∧ s.wdg.cnt + 1 < s.wdg.timeout ∧
      watchdogTick s = { s with wdg := { s.wdg with cnt := s.wdg.cnt + 1 } }) ∨
    (s.wdg.armed = true ∧ s.wdg.timeout ≤ s.wdg.cnt + 1 ∧ watchdogTick s = systemReset .watchdogTimeout s) := by
  unfold watchdogTick
  split
  · next he => exact .inr (.inr ⟨((watchdogExpires_iff s).1 he).1, ((watchdogExpires_iff s).1 he).2, rfl⟩)
  · next he =>
    rw [watchdogExpires_iff] at he
    split
    · next ha => exact .inr (.inl ⟨ha, by simpa [ha] using he, rfl⟩)
    · next ha => exact .inl ⟨by simpa using ha, rfl⟩

/-- SYS.RESET is the reset, where its cause may raise it. -/
theorem execSysReset_next {c : Cause} {s t : State} (h : execSysReset c s = .next t) :
    resetRaised c s = true ∧ t = systemReset c s := by
  unfold execSysReset at h
  split at h
  · cases h; exact ⟨‹_›, rfl⟩
  · cases h

/-- The row WatchdogTimeout is the reset, at expiry. -/
theorem execErrWatchdogTimeout_next {s t : State} (h : execErrWatchdogTimeout s = .next t) :
    watchdogExpires s = true ∧ t = systemReset .watchdogTimeout s := by
  unfold execErrWatchdogTimeout at h
  split at h
  · next he => cases h; exact ⟨he, by unfold watchdogTick; rw [if_pos he]⟩
  · cases h

/-- The trap entry: the registers latched, or the sequencer stopped. -/
theorem enterHardFault_cases (regs : FaultRegs) (s : State) :
    (s.hf.phase = .idle ∧ enterHardFault regs s = { s with hf := { s.hf with phase := .entered, input := regs } }) ∨
    (s.hf.phase ≠ .idle ∧ enterHardFault regs s = { s with hf := { s.hf with stuck := true } }) := by
  unfold enterHardFault
  split
  · exact .inl ⟨‹_›, rfl⟩
  · exact .inr ⟨‹_›, rfl⟩

/-! ## Steps -/

/-- What a fetch that runs has found. -/
theorem fetch_run {s u : State} {i : Instr} (h : fetch s = .run i u) :
    ∃ r rest, s.port = r :: rest ∧ decode r = .ok i ∧ mayIssue r.agent i = true ∧ waits i s = false ∧
      u = { s with port := rest, boot := bootAfter s.boot i } := by
  unfold fetch at h
  split at h
  · cases h
  · split at h
    · cases h
    · split at h
      · split at h
        · cases h
        · next hw => cases h; exact ⟨_, _, by assumption, by assumption, by assumption, by simpa using hw, rfl⟩
      · cases h

/-- SW's own step: the arming, FL.BOOT, a feed, or a tick. -/
theorem idleStep_next {s t : State} (h : idleStep s = .next t) :
    (s.boot = .arm ∧ execWdgArm s.cfg.wdgTimeout { s with boot := .store } = .next t) ∨
    (s.boot = .store ∧ execFlBoot { s with boot := .tasks } = .next t) ∨
    (s.boot = .tasks ∧ (execWdgFeed s = .next t ∨ execWdgTick s = .next t)) := by
  unfold idleStep at h
  split at h
  · exact .inl ⟨‹_›, h⟩
  · exact .inr (.inl ⟨‹_›, h⟩)
  · split at h
    · exact .inr (.inr ⟨‹_›, .inl h⟩)
    · exact .inr (.inr ⟨‹_›, .inr h⟩)

/-- The block's own step is one instruction too, after at most one draw, with SW's place in the boot sequence moved as if SW had issued
it; where SW is held it is none of SW's operations. -/
theorem ownStep_next {s t : State} (h : ownStep s = .next t) :
    ∃ (i : Instr) (n : Nat),
      exec i { s with draws := n, boot := bootAfter s.boot i } = .next t ∧
      (softwareHeld s = true → isSoftware (issuerOf i) = false) ∧
      (isSoftware (issuerOf i) = true → bootAdmits s.cfg s.boot i = true) := by
  have plain {i : Instr} (n : Nat) (hi : isSoftware (issuerOf i) = false) (hb : bootAfter s.boot i = s.boot)
      (he : exec i { s with draws := n } = .next t) :
      ∃ (i : Instr) (n : Nat),
        exec i { s with draws := n, boot := bootAfter s.boot i } = .next t ∧
        (softwareHeld s = true → isSoftware (issuerOf i) = false) ∧
        (isSoftware (issuerOf i) = true → bootAdmits s.cfg s.boot i = true) :=
    ⟨i, n, by rw [hb]; exact he, fun _ => hi, fun h => by rw [hi] at h; cases h⟩
  have still {i : Instr} (h1 : ∀ k, i ≠ .wdgArm k) (h2 : i ≠ .flBoot) : bootAfter s.boot i = s.boot := by
    unfold bootAfter; split
    · exact absurd rfl (h1 _)
    · exact absurd rfl h2
    · rfl
  have tick {n : Nat} (he : execWdgTick { s with draws := n } = .next t) := plain (i := .wdgTick) n rfl (still nofun nofun) he
  have busy {k : State → Host.Outcome State Fault Refusal} {i : Instr} (hi : isSoftware (issuerOf i) = false)
      (h1 : ∀ k, i ≠ .wdgArm k) (h2 : i ≠ .flBoot) (hk : ∀ u, k u = exec i u) (h : busyStep k s = .next t) := by
    unfold busyStep at h
    split at h
    · exact plain s.draws hi (still h1 h2) (hk s ▸ h)
    · exact tick (n := s.draws + 1) h
  unfold ownStep at h
  split at h
  · next ha =>
    split at h
    · split at h
      · exact tick h
      · cases h
    · unfold sequencerStep at h
      split at h
      · next hp => simp [atException, hp] at ha
      · exact plain (i := .hfCapture) s.draws rfl (still nofun nofun) h
      · exact plain (i := .hfLog) s.draws rfl (still nofun nofun) h
      · exact plain (i := .hfReset) s.draws rfl (still nofun nofun) h
  · next ha =>
    unfold flashStep at h
    split at h
    · next hr =>
      split at h
      · next ho =>
        have hfree : softwareHeld s = true → False := by simp [softwareHeld, ha, flIdle, hr, ho]
        rcases idleStep_next h with ⟨hb, h⟩ | ⟨hb, h⟩ | ⟨hb, h | h⟩
        · exact ⟨.wdgArm s.cfg.wdgTimeout, s.draws, by rw [hb]; exact h, fun hh => (hfree hh).elim,
            fun _ => by rw [hb]; simp [bootAdmits]⟩
        · exact ⟨.flBoot, s.draws, by rw [hb]; exact h, fun hh => (hfree hh).elim, fun _ => by rw [hb]; rfl⟩
        · exact ⟨.wdgFeed, s.draws, by
            rw [still (i := .wdgFeed) (fun _ => nofun) nofun]; exact h, fun hh => (hfree hh).elim, fun _ => by rw [hb]; rfl⟩
        · exact tick h
      · exact plain (i := .flcUnlock) s.draws rfl (still nofun nofun) h
    · exact plain (i := .flcSelectErase) s.draws rfl (still nofun nofun) h
    · exact plain (i := .flcStartErase) s.draws rfl (still nofun nofun) h
    · exact busy (i := .flcCompleteErase) rfl nofun nofun (fun _ => rfl) h
    · split at h
      · exact plain (i := .flcLock) s.draws rfl (still nofun nofun) h
      · exact tick h
    · exact plain (i := .flcSelectProgram) s.draws rfl (still nofun nofun) h
    · split at h
      · exact tick h
      · split at h
        · exact plain (i := .flcLock) s.draws rfl (still nofun nofun) h
        · split at h
          · exact plain (i := .flcProgramUnit _) s.draws rfl (still nofun nofun) h
          · exact plain (i := .flcVerify) s.draws rfl (still nofun nofun) h
    · exact busy (i := .flcCompleteUnit _) rfl nofun nofun (fun _ => rfl) h
    · exact plain (i := .flcLock) s.draws rfl (still nofun nofun) h

/-- Every step runs one instruction, on the state with another port or another draw count, and with SW's place in the boot sequence
moved by what SW issues; what SW issues is what that place admits. -/
theorem step_next {s t : State} (h : step s = .next t) :
    ∃ (i : Instr) (p : List Request) (n : Nat),
      exec i { s with port := p, draws := n, boot := bootAfter s.boot i } = .next t ∧
      (isSoftware (issuerOf i) = true → bootAdmits s.cfg s.boot i = true) := by
  unfold step at h
  split at h
  · obtain ⟨i, n, hi, -, hb⟩ := ownStep_next h
    exact ⟨i, s.port, n, hi, hb⟩
  · cases h
  · next i u hf =>
    obtain ⟨r, rest, -, -, -, hw, rfl⟩ := fetch_run hf
    refine ⟨i, rest, s.draws, h, fun hi => ?_⟩
    simp only [waits, hi, Bool.true_and, Bool.or_eq_false_iff, Bool.not_eq_false'] at hw
    exact hw.1.2

/-- The memory of the machine after reset is in canonical form. -/
theorem reset_mem_wf : State.reset.fl.mem.wf := wf_nil

end Sys2Proof.Machine
end

