-- ==== Sys2Proof/Laws/PerInstr.lean ====
section
/-! SUPPORT. The per-instruction family: an instruction is presented by its issuer (30_encoding.md R112) and its code has the number of
bytes of its space (R92, R93, R100, R103, R110, R111, R116). -/

namespace Sys2Proof.Laws

/-- The number of bytes a code of this space has. -/
def codeFits (space : Space) (n : Nat) : Bool :=
  match space with
  | .op | .cell | .error => n == 1
  | .phase => n == 0
  | .wire => n == 1 || n == 2
  | .header => n == 9
  | .command => n == 2

/-- The statement of the family `EncodesInItsSpace`. -/
def EncodesInItsSpace.Statement (i : Instr) : Prop :=
  (encode i).agent = issuerOf i ∧ codeFits (encode i).space (encode i).code.length = true

theorem EncodesInItsSpace.encFrame (payload : Bytes) (useCrc : Bool) : EncodesInItsSpace.Statement (.encFrame payload useCrc) := ⟨rfl, rfl⟩
theorem EncodesInItsSpace.encEscape (s : Bytes) : EncodesInItsSpace.Statement (.encEscape s) := ⟨rfl, rfl⟩
theorem EncodesInItsSpace.decPush (b : Byte) : EncodesInItsSpace.Statement (.decPush b) := ⟨rfl, rfl⟩
theorem EncodesInItsSpace.decReset : EncodesInItsSpace.Statement .decReset := ⟨rfl, rfl⟩
theorem EncodesInItsSpace.crcBlock (s : Bytes) : EncodesInItsSpace.Statement (.crcBlock s) := ⟨rfl, rfl⟩
theorem EncodesInItsSpace.crcUpdate (c : Half) (b : Byte) : EncodesInItsSpace.Statement (.crcUpdate c b) := ⟨rfl, rfl⟩
theorem EncodesInItsSpace.crcAppend (s : Bytes) : EncodesInItsSpace.Statement (.crcAppend s) := ⟨rfl, rfl⟩
theorem EncodesInItsSpace.crcVerify (body : Bytes) : EncodesInItsSpace.Statement (.crcVerify body) := ⟨rfl, rfl⟩
theorem EncodesInItsSpace.msgSend (command : Half) (id : Byte) (payload : Bytes) : EncodesInItsSpace.Statement (.msgSend command id payload) := ⟨rfl, rfl⟩
theorem EncodesInItsSpace.msgRecv (p : Bytes) : EncodesInItsSpace.Statement (.msgRecv p) := ⟨rfl, rfl⟩
theorem EncodesInItsSpace.msgTick : EncodesInItsSpace.Statement .msgTick := ⟨rfl, rfl⟩
theorem EncodesInItsSpace.flScan : EncodesInItsSpace.Statement .flScan := ⟨rfl, rfl⟩
theorem EncodesInItsSpace.flErase : EncodesInItsSpace.Statement .flErase := ⟨rfl, rfl⟩
theorem EncodesInItsSpace.flWrite (offset : Nat) (data : Bytes) : EncodesInItsSpace.Statement (.flWrite offset data) := ⟨rfl, rfl⟩
theorem EncodesInItsSpace.flRead (offset : Nat) (length : Nat) : EncodesInItsSpace.Statement (.flRead offset length) := ⟨rfl, rfl⟩
theorem EncodesInItsSpace.flBoot : EncodesInItsSpace.Statement .flBoot := ⟨rfl, rfl⟩
theorem EncodesInItsSpace.wdgArm (timeout : Nat) : EncodesInItsSpace.Statement (.wdgArm timeout) := ⟨rfl, rfl⟩
theorem EncodesInItsSpace.wdgFeed : EncodesInItsSpace.Statement .wdgFeed := ⟨rfl, rfl⟩
theorem EncodesInItsSpace.wdgTick : EncodesInItsSpace.Statement .wdgTick := ⟨rfl, rfl⟩
theorem EncodesInItsSpace.hfEnter (pc : Nat) (lr : Nat) (fsr : List Nat) : EncodesInItsSpace.Statement (.hfEnter pc lr fsr) := ⟨rfl, rfl⟩
theorem EncodesInItsSpace.hfCapture : EncodesInItsSpace.Statement .hfCapture := ⟨rfl, rfl⟩
theorem EncodesInItsSpace.hfLog : EncodesInItsSpace.Statement .hfLog := ⟨rfl, rfl⟩
theorem EncodesInItsSpace.hfReset : EncodesInItsSpace.Statement .hfReset := ⟨rfl, rfl⟩
theorem EncodesInItsSpace.sysReset (cause : Cause) : EncodesInItsSpace.Statement (.sysReset cause) := ⟨rfl, rfl⟩
theorem EncodesInItsSpace.flcUnlock : EncodesInItsSpace.Statement .flcUnlock := ⟨rfl, rfl⟩
theorem EncodesInItsSpace.flcSelectErase : EncodesInItsSpace.Statement .flcSelectErase := ⟨rfl, rfl⟩
theorem EncodesInItsSpace.flcStartErase : EncodesInItsSpace.Statement .flcStartErase := ⟨rfl, rfl⟩
theorem EncodesInItsSpace.flcCompleteErase : EncodesInItsSpace.Statement .flcCompleteErase := ⟨rfl, rfl⟩
theorem EncodesInItsSpace.flcLock : EncodesInItsSpace.Statement .flcLock := ⟨rfl, rfl⟩
theorem EncodesInItsSpace.flcSelectProgram : EncodesInItsSpace.Statement .flcSelectProgram := ⟨rfl, rfl⟩
theorem EncodesInItsSpace.flcProgramUnit (i : Nat) : EncodesInItsSpace.Statement (.flcProgramUnit i) := ⟨rfl, rfl⟩
theorem EncodesInItsSpace.flcCompleteUnit (i : Nat) : EncodesInItsSpace.Statement (.flcCompleteUnit i) := ⟨rfl, rfl⟩
theorem EncodesInItsSpace.flcVerify : EncodesInItsSpace.Statement .flcVerify := ⟨rfl, rfl⟩
theorem EncodesInItsSpace.decIdleFlag : EncodesInItsSpace.Statement .decIdleFlag := ⟨rfl, rfl⟩
theorem EncodesInItsSpace.decIdleOther (b : Byte) : EncodesInItsSpace.Statement (.decIdleOther b) := ⟨rfl, rfl⟩
theorem EncodesInItsSpace.decInFrameFlagNonempty : EncodesInItsSpace.Statement .decInFrameFlagNonempty := ⟨rfl, rfl⟩
theorem EncodesInItsSpace.decInFrameFlagEmpty : EncodesInItsSpace.Statement .decInFrameFlagEmpty := ⟨rfl, rfl⟩
theorem EncodesInItsSpace.decInFrameEsc : EncodesInItsSpace.Statement .decInFrameEsc := ⟨rfl, rfl⟩
theorem EncodesInItsSpace.decInFrameData (b : Byte) : EncodesInItsSpace.Statement (.decInFrameData b) := ⟨rfl, rfl⟩
theorem EncodesInItsSpace.decEscapedNonFlag (b : Byte) : EncodesInItsSpace.Statement (.decEscapedNonFlag b) := ⟨rfl, rfl⟩
theorem EncodesInItsSpace.decEscapedFlag : EncodesInItsSpace.Statement .decEscapedFlag := ⟨rfl, rfl⟩
theorem EncodesInItsSpace.wireFlag : EncodesInItsSpace.Statement .wireFlag := ⟨rfl, rfl⟩
theorem EncodesInItsSpace.wireEsc : EncodesInItsSpace.Statement .wireEsc := ⟨rfl, rfl⟩
theorem EncodesInItsSpace.wireData (b : Byte) : EncodesInItsSpace.Statement (.wireData b) := ⟨rfl, rfl⟩
theorem EncodesInItsSpace.pairEscFlag : EncodesInItsSpace.Statement .pairEscFlag := ⟨rfl, rfl⟩
theorem EncodesInItsSpace.pairEscEsc : EncodesInItsSpace.Statement .pairEscEsc := ⟨rfl, rfl⟩
theorem EncodesInItsSpace.pairEscAny (b : Byte) : EncodesInItsSpace.Statement (.pairEscAny b) := ⟨rfl, rfl⟩
theorem EncodesInItsSpace.pairAbort : EncodesInItsSpace.Statement .pairAbort := ⟨rfl, rfl⟩
theorem EncodesInItsSpace.msgHeader (command : Half) (id : Byte) (count : Half) (index : Half) (length : Half) (data : Bytes) : EncodesInItsSpace.Statement (.msgHeader command id count index length data) := ⟨rfl, rfl⟩
theorem EncodesInItsSpace.cmdAck (id : Byte) (data : Bytes) : EncodesInItsSpace.Statement (.cmdAck id data) := ⟨rfl, rfl⟩
theorem EncodesInItsSpace.cmdNak (id : Byte) (data : Bytes) : EncodesInItsSpace.Statement (.cmdNak id data) := ⟨rfl, rfl⟩
theorem EncodesInItsSpace.cmdPing (id : Byte) (data : Bytes) : EncodesInItsSpace.Statement (.cmdPing id data) := ⟨rfl, rfl⟩
theorem EncodesInItsSpace.cmdRaw (id : Byte) (data : Bytes) : EncodesInItsSpace.Statement (.cmdRaw id data) := ⟨rfl, rfl⟩
theorem EncodesInItsSpace.cmdUnknown (command : Half) (id : Byte) (data : Bytes) : EncodesInItsSpace.Statement (.cmdUnknown command id data) := ⟨rfl, rfl⟩
theorem EncodesInItsSpace.errTruncated : EncodesInItsSpace.Statement .errTruncated := ⟨rfl, rfl⟩
theorem EncodesInItsSpace.errOverflow : EncodesInItsSpace.Statement .errOverflow := ⟨rfl, rfl⟩
theorem EncodesInItsSpace.errCrcMismatch : EncodesInItsSpace.Statement .errCrcMismatch := ⟨rfl, rfl⟩
theorem EncodesInItsSpace.errMalformedHeader : EncodesInItsSpace.Statement .errMalformedHeader := ⟨rfl, rfl⟩
theorem EncodesInItsSpace.errFragmentOutOfOrder : EncodesInItsSpace.Statement .errFragmentOutOfOrder := ⟨rfl, rfl⟩
theorem EncodesInItsSpace.errReassemblyBusy : EncodesInItsSpace.Statement .errReassemblyBusy := ⟨rfl, rfl⟩
theorem EncodesInItsSpace.errUnknownCommand : EncodesInItsSpace.Statement .errUnknownCommand := ⟨rfl, rfl⟩
theorem EncodesInItsSpace.errNotClean : EncodesInItsSpace.Statement .errNotClean := ⟨rfl, rfl⟩
theorem EncodesInItsSpace.errEraseFailed : EncodesInItsSpace.Statement .errEraseFailed := ⟨rfl, rfl⟩
theorem EncodesInItsSpace.errProgramFailed : EncodesInItsSpace.Statement .errProgramFailed := ⟨rfl, rfl⟩
theorem EncodesInItsSpace.errHardFault (pc : Nat) (lr : Nat) (fsr : List Nat) : EncodesInItsSpace.Statement (.errHardFault pc lr fsr) := ⟨rfl, rfl⟩
theorem EncodesInItsSpace.errWatchdogTimeout : EncodesInItsSpace.Statement .errWatchdogTimeout := ⟨rfl, rfl⟩

end Sys2Proof.Laws
end

