-- ==== Sys2Proof/Tests/Slice0.lean ====
section
/-! SUPPORT. Tests: the well-formedness checks, every row's code written out from the tables of 30_encoding.md and 41_frame_decoder.md,
single steps with results taken from 95_test_vectors.md, and a witness for the hypotheses of every obligation that has some. -/

namespace Sys2Proof.Tests

open Sys2Proof Sys2Proof.Machine

-- One thread: the kernel evaluates these tests one after the other, and a thread for each would not fit the check's memory limit.
set_option Elab.async false

/-! ## Small states -/

/-- The state an outcome goes on with. -/
def next? (o : Host.Outcome State Fault Refusal) : Option State :=
  match o with
  | .next s => some s
  | .fault _ => none
  | .refused _ => none

/-- The refusal of an outcome. -/
def refusal? (o : Host.Outcome State Fault Refusal) : Option Refusal :=
  match o with
  | .next _ => none
  | .fault _ => none
  | .refused r => some r

/-- The result of one instruction. -/
def retOf (i : Instr) (s : State) : Option Result := (next? (exec i s)).map State.ret

/-- The bytes on TX after one instruction. -/
def txOf (i : Instr) (s : State) : Option Bytes := (next? (exec i s)).map State.tx

/-- The decoder after one instruction. -/
def decOf (i : Instr) (s : State) : Option Dec := (next? (exec i s)).map State.dec

def withDec (st : DecSt) (acc : Bytes) : State := State.reset.setDec { st := st, acc := acc }

def withCtx (count nextIdx : Half) (buf : Bytes) (idle : Nat) : State :=
  State.reset.setCtx { active := true, id := 0x21, count := count, nextIdx := nextIdx, cmd := 0x0004, buf := buf, idle := idle }

def withMem (m : Memory) : State := State.reset.setFl (Fl.reset m)

def withPhase (p : FlPhase) (locked : Bool) (mode : FlMode) (busy : Bool) (m : Memory) : State :=
  State.reset.setFl
    { Fl.reset m with phase := p, locked := locked, mode := mode, busy := busy, op := .erase, complete := p == .eDone }

/-- A write of `12 34` at offset 0 with `unit` units done. -/
def withWrite (p : FlPhase) (busy : Bool) (unit : Nat) (m : Memory) : State :=
  State.reset.setFl
    { Fl.reset m with
      phase := p, locked := false, mode := .program, busy := busy, op := .write, data := [0x12, 0x34], unit := unit }

/-- The controller has reported an error. -/
def withErr (s : State) : State := s.setFl { s.fl with err := true }

/-- The watchdog armed and the tasks running. -/
def armed (timeout cnt : Nat) : State :=
  (State.reset.setWdg { armed := true, timeout := timeout, cnt := cnt }).setBoot .tasks

/-- The fault registers of 95_test_vectors.md L2.7 #9. -/
def regs9 : FaultRegs := { pc := 0x08001234, lr := 0x08000FF1, fsr := [0x00008200, 0x40000000] }

def withHf (p : HfPhase) (valid : Bool) : State :=
  State.reset.setHf { phase := p, stuck := false, input := regs9, record := { valid := valid, regs := regs9 } }

def withCfg (f : Params → Params) (s : State) : State := { s with cfg := f s.cfg }

/-! ## WellFormed: one ill-formed term for each check -/

theorem test_wf_verifyLength : (Instr.crcVerify [0xFF]).wellFormed Params.vectors = false := by decide

theorem test_wf_sendLength (payload : Bytes) (h : payload.length = 16776961) :
    (Instr.msgSend 4 0 payload).wellFormed Params.vectors = false := by
  simp only [Instr.wellFormed, h]; decide

theorem test_wf_armZero : (Instr.wdgArm 0).wellFormed Params.vectors = false := by decide

theorem test_wf_faultRegs :
    (Instr.hfEnter (2 ^ 32) 0 [0, 0]).wellFormed Params.vectors = false ∧
    (Instr.hfEnter 0 (2 ^ 32) [0, 0]).wellFormed Params.vectors = false ∧
    (Instr.hfEnter 0 0 [0]).wellFormed Params.vectors = false ∧
    (Instr.errHardFault 0 0 [0, 2 ^ 32]).wellFormed Params.vectors = false := by decide

theorem test_wf_excludedBytes :
    (Instr.decIdleOther 0x7E).wellFormed Params.vectors = false ∧ (Instr.decInFrameData 0x7E).wellFormed Params.vectors = false ∧
    (Instr.decInFrameData 0x7D).wellFormed Params.vectors = false ∧
    (Instr.decEscapedNonFlag 0x7E).wellFormed Params.vectors = false ∧ (Instr.wireData 0x7E).wellFormed Params.vectors = false ∧
    (Instr.wireData 0x7D).wellFormed Params.vectors = false ∧ (Instr.pairEscAny 0x7E).wellFormed Params.vectors = false ∧
    (Instr.pairEscAny 0x5E).wellFormed Params.vectors = false ∧ (Instr.pairEscAny 0x5D).wellFormed Params.vectors = false := by decide

theorem test_wf_knownCommand :
    (Instr.cmdUnknown 1 0 []).wellFormed Params.vectors = false ∧ (Instr.cmdUnknown 4 0 []).wellFormed Params.vectors = false := by
  decide

/-! ## Decode: the word of every row, written out from the spec's tables -/

/-- A request of any agent: the decoder does not look at it. -/
def req (space : Space) (code : Bytes) (operands : List Operand) : Request :=
  { agent := .sw, space := space, code := code, operands := operands }

/-- R110: 0b0001_0000 and 0b0001_0001, the encoder. -/
theorem test_decode_enc :
    decode (req .op [0b00010000] [.bytes [0x7E], .bit true]) = .ok (.encFrame [0x7E] true) ∧
    decode (req .op [0b00010001] [.bytes [0x7E]]) = .ok (.encEscape [0x7E]) := by decide

/-- R110: 0b0010_000x, the decoder. -/
theorem test_decode_dec :
    decode (req .op [0b00100000] [.u8 0xAA]) = .ok (.decPush 0xAA) ∧ decode (req .op [0b00100001] []) = .ok .decReset := by decide

/-- R110: 0b0011_00xx, the CRC engine. -/
theorem test_decode_crc :
    decode (req .op [0b00110000] [.bytes [1]]) = .ok (.crcBlock [1]) ∧
    decode (req .op [0b00110001] [.u16 0xFFFF, .u8 0xAA]) = .ok (.crcUpdate 0xFFFF 0xAA) ∧
    decode (req .op [0b00110010] [.bytes [1]]) = .ok (.crcAppend [1]) ∧
    decode (req .op [0b00110011] [.bytes [1, 2]]) = .ok (.crcVerify [1, 2]) := by decide

/-- R110: 0b0100_00xx, the message layer. -/
theorem test_decode_msg :
    decode (req .op [0b01000000] [.u16 3, .u8 7, .bytes [0xAA]]) = .ok (.msgSend 3 7 [0xAA]) ∧
    decode (req .op [0b01000001] [.bytes [1]]) = .ok (.msgRecv [1]) ∧ decode (req .op [0b01000010] []) = .ok .msgTick := by decide

/-- R110: 0b0101_0xxx, the flash store. -/
theorem test_decode_fl :
    decode (req .op [0b01010000] []) = .ok .flScan ∧ decode (req .op [0b01010001] []) = .ok .flErase ∧
    decode (req .op [0b01010010] [.nat 2, .bytes [0x56]]) = .ok (.flWrite 2 [0x56]) ∧
    decode (req .op [0b01010011] [.nat 0, .nat 3]) = .ok (.flRead 0 3) ∧ decode (req .op [0b01010100] []) = .ok .flBoot := by decide

/-- R110: 0b0110_00xx, the watchdog. -/
theorem test_decode_wdg :
    decode (req .op [0b01100000] [.nat 4]) = .ok (.wdgArm 4) ∧ decode (req .op [0b01100001] []) = .ok .wdgFeed ∧
    decode (req .op [0b01100010] []) = .ok .wdgTick := by decide

/-- R110: 0b0111_00xx and 0b0111_1111, the hardfault path and the reset. -/
theorem test_decode_hf :
    decode (req .op [0b01110000] [.nat 1, .nat 2, .nats [3, 4]]) = .ok (.hfEnter 1 2 [3, 4]) ∧
    decode (req .op [0b01110001] []) = .ok .hfCapture ∧ decode (req .op [0b01110010] []) = .ok .hfLog ∧
    decode (req .op [0b01110011] []) = .ok .hfReset ∧
    decode (req .op [0b01111111] [.cause .external]) = .ok (.sysReset .external) := by decide

/-- R112: a reserved code, and a listed code without its operands. -/
theorem test_decode_rejects :
    decode (req .op [0x12] []) = .error .reservedSelect ∧ decode (req .op [] []) = .error .codeLength ∧
    decode (req .op [0x20] []) = .error .badOperands ∧ decode (req .error [0x10] []) = .error .reservedError ∧
    decode (req .wire [0x7E, 0x5E] []) = .error .notAPair := by decide

/-- R111: the phases, by name. -/
theorem test_decode_phases :
    decode (req .phase [] [.phase .unlock]) = .ok .flcUnlock ∧ decode (req .phase [] [.phase .selectErase]) = .ok .flcSelectErase ∧
    decode (req .phase [] [.phase .startErase]) = .ok .flcStartErase ∧
    decode (req .phase [] [.phase .completeErase]) = .ok .flcCompleteErase ∧ decode (req .phase [] [.phase .lock]) = .ok .flcLock ∧
    decode (req .phase [] [.phase .selectProgram]) = .ok .flcSelectProgram ∧
    decode (req .phase [] [.phase .programUnit, .nat 1]) = .ok (.flcProgramUnit 1) ∧
    decode (req .phase [] [.phase .completeUnit, .nat 1]) = .ok (.flcCompleteUnit 1) ∧
    decode (req .phase [] [.phase .verify]) = .ok .flcVerify := by decide

/-- R150: the cells, all of select code 0x20. -/
theorem test_decode_cells :
    decode (req .cell [0x20] [.cell .idleFlag]) = .ok .decIdleFlag ∧
    decode (req .cell [0x20] [.cell .idleOther, .u8 1]) = .ok (.decIdleOther 1) ∧
    decode (req .cell [0x20] [.cell .inFrameFlagNonempty]) = .ok .decInFrameFlagNonempty ∧
    decode (req .cell [0x20] [.cell .inFrameFlagEmpty]) = .ok .decInFrameFlagEmpty ∧
    decode (req .cell [0x20] [.cell .inFrameEsc]) = .ok .decInFrameEsc ∧
    decode (req .cell [0x20] [.cell .inFrameData, .u8 1]) = .ok (.decInFrameData 1) ∧
    decode (req .cell [0x20] [.cell .escapedNonFlag, .u8 1]) = .ok (.decEscapedNonFlag 1) ∧
    decode (req .cell [0x20] [.cell .escapedFlag]) = .ok .decEscapedFlag := by decide

/-- R92: 0b0111_1110, 0b0111_1101, and the 254 others. -/
theorem test_decode_wireBytes :
    decode (req .wire [0b01111110] []) = .ok .wireFlag ∧ decode (req .wire [0b01111101] []) = .ok .wireEsc ∧
    decode (req .wire [0x5E] []) = .ok (.wireData 0x5E) ∧ decode (req .wire [0x00] []) = .ok (.wireData 0) := by decide

/-- R93, R94, R159: the pairs 0x7D opens. -/
theorem test_decode_wirePairs :
    decode (req .wire [0x7D, 0x5E] []) = .ok .pairEscFlag ∧ decode (req .wire [0x7D, 0x5D] []) = .ok .pairEscEsc ∧
    decode (req .wire [0x7D, 0x8A] []) = .ok (.pairEscAny 0x8A) ∧ decode (req .wire [0x7D, 0x7D] []) = .ok (.pairEscAny 0x7D) ∧
    decode (req .wire [0x7D, 0x7E] []) = .ok .pairAbort := by decide

/-- R100, R202: the header of 95_test_vectors.md L2.5 whose every field differs, byte by byte. -/
theorem test_decode_header :
    decode (req .header [0x34, 0x12, 0xAB, 0x02, 0x01, 0x04, 0x03, 0x00, 0x01] [.bytes []]) =
      .ok (.msgHeader 0x1234 0xAB 0x0102 0x0304 0x0100 []) := by decide

/-- R103, R64: the command codes, low byte first; 0x0103 is not Ping. -/
theorem test_decode_commands :
    decode (req .command [0x01, 0x00] [.u8 1, .bytes []]) = .ok (.cmdAck 1 []) ∧
    decode (req .command [0x02, 0x00] [.u8 1, .bytes []]) = .ok (.cmdNak 1 []) ∧
    decode (req .command [0x03, 0x00] [.u8 7, .bytes [0xAA]]) = .ok (.cmdPing 7 [0xAA]) ∧
    decode (req .command [0x04, 0x00] [.u8 1, .bytes []]) = .ok (.cmdRaw 1 []) ∧
    decode (req .command [0x03, 0x01] [.u8 1, .bytes []]) = .ok (.cmdUnknown 0x0103 1 []) := by decide

/-- R116: the error codes. -/
theorem test_decode_errors :
    decode (req .error [0x11] []) = .ok .errTruncated ∧ decode (req .error [0x12] []) = .ok .errOverflow ∧
    decode (req .error [0x13] []) = .ok .errCrcMismatch ∧ decode (req .error [0x21] []) = .ok .errMalformedHeader ∧
    decode (req .error [0x22] []) = .ok .errFragmentOutOfOrder ∧ decode (req .error [0x23] []) = .ok .errReassemblyBusy ∧
    decode (req .error [0x24] []) = .ok .errUnknownCommand ∧ decode (req .error [0x31] []) = .ok .errNotClean ∧
    decode (req .error [0x32] []) = .ok .errEraseFailed ∧ decode (req .error [0x33] []) = .ok .errProgramFailed ∧
    decode (req .error [0x41] [.nat 1, .nat 2, .nats [3, 4]]) = .ok (.errHardFault 1 2 [3, 4]) ∧
    decode (req .error [0x42] []) = .ok .errWatchdogTimeout := by decide

/-- The table's words: 8 bits, 16 bits and 72 bits. -/
theorem test_decodeTableWord :
    decodeTableWord 8 0x50 = some .flScan ∧ decodeTableWord 8 0x7E = some .wireFlag ∧ decodeTableWord 8 0x13 = some .errCrcMismatch ∧
    decodeTableWord 16 0x7D5E = some .pairEscFlag ∧ decodeTableWord 16 0x0003 = some (.cmdPing 0 []) ∧
    decodeTableWord 72 0x005800020003210004 = some (.msgHeader 4 0x21 3 2 88 []) ∧ decodeTableWord 8 0x55 = none := by decide

/-! ## Single steps, with the results of 95_test_vectors.md -/

/-- L2.2. -/
theorem test_encFrame_escapes :
    txOf (.encFrame [0x7E, 0x7D, 0x01] true) State.reset = some [0x7E, 0x7D, 0x5E, 0x7D, 0x5D, 0x01, 0xC5, 0xF8, 0x7E] := by
  decide +kernel

/-- L2.2, the trailer escaped too, and the trailer with CRC off. -/
theorem test_encFrame_trailer :
    txOf (.encFrame [0xA2, 0x01] true) State.reset = some [0x7E, 0xA2, 0x01, 0x7D, 0x5E, 0x7D, 0x5D, 0x7E] ∧
    txOf (.encFrame [0x7E] false) State.reset = some [0x7E, 0x7D, 0x5E, 0x00, 0x00, 0x7E] := by decide +kernel

/-- L2.2. -/
theorem test_encEscape : retOf (.encEscape [0x7E, 0x7D, 0x01]) State.reset = some (.bytes [0x7D, 0x5E, 0x7D, 0x5D, 0x01]) := by
  decide +kernel

/-- L2.3 #14, the last byte. -/
theorem test_decPush_closes :
    retOf (.decPush 0x7E) (withDec .inFrame [0x7E, 0x7D, 0x01, 0xC5, 0xF8]) = some (.frame [0x7E, 0x7D, 0x01]) := by decide +kernel

/-- L2.3 #20 at byte 5, with `MAX_BODY = 4`. -/
theorem test_decPush_overflows :
    retOf (.decPush 0x05) (withCfg (fun p => { p with maxBody := 4 }) (withDec .inFrame [1, 2, 3, 4])) = some (.err .overflow) := by
  decide +kernel

/-- L2.3, DEC.RESET after #16. -/
theorem test_decReset : decOf .decReset (withDec .escaped [0xAA]) = some { st := .idle, acc := [] } := by decide +kernel

/-- L2.1. -/
theorem test_crcBlock :
    retOf (.crcBlock [0x31, 0x32, 0x33, 0x34, 0x35, 0x36, 0x37, 0x38, 0x39]) State.reset = some (.word 0x6F91) ∧
    retOf (.crcBlock []) State.reset = some (.word 0xFFFF) := by decide +kernel

/-- L2.1. -/
theorem test_crcUpdate :
    retOf (.crcUpdate 0xFFFF 0xAA) State.reset = some (.word 0x05D7) ∧ retOf (.crcUpdate 0 0x80) State.reset = some (.word 0x8408) := by
  decide +kernel

/-- L2.1. -/
theorem test_crcAppend : retOf (.crcAppend [0xAA]) State.reset = some (.bytes [0xAA, 0xD7, 0x05]) := by decide +kernel

/-- L2.1. -/
theorem test_crcVerify :
    retOf (.crcVerify [0xAA, 0xD7, 0x05]) State.reset = some (.bool true) ∧
    retOf (.crcVerify [0xAA, 0xD7, 0x04]) State.reset = some (.bool false) := by decide +kernel

/-- L2.5. -/
theorem test_msgSend :
    txOf (.msgSend 0x0002 0x7E [0x7D]) State.reset =
      some [0x7E, 0x02, 0x00, 0x7D, 0x5E, 0x01, 0x00, 0x00, 0x00, 0x01, 0x00, 0x7D, 0x5D, 0xD6, 0x11, 0x7E] := by decide +kernel

/-- L2.5, MSG.RECV #1. -/
theorem test_msgRecv_ping :
    txOf (.msgRecv [0x03, 0x00, 0x07, 0x01, 0x00, 0x00, 0x00, 0x01, 0x00, 0xAA]) State.reset =
      some [0x7E, 0x03, 0x00, 0x07, 0x01, 0x00, 0x00, 0x00, 0x01, 0x00, 0xAA, 0xB9, 0xBB, 0x7E] := by decide +kernel

/-- L2.5, MSG.RECV #13 and #17. -/
theorem test_msgRecv_rejects :
    retOf (.msgRecv [0x04, 0x00, 0x22, 0x03, 0x00, 0x00, 0x00, 0x00, 0x00]) (withCtx 3 1 [] 0) = some (.err .reassemblyBusy) ∧
    retOf (.msgRecv [0x04, 0x00, 0x21, 0x04, 0x00, 0x01, 0x00, 0x01, 0x00, 0x00]) (withCtx 3 1 [] 0) =
      some (.err .fragmentOutOfOrder) := by decide +kernel

/-- L2.5, MSG.TICK: the third tick releases. -/
theorem test_msgTick :
    (next? (exec .msgTick (withCtx 3 2 [] 1))).map (fun t => (t.ctx.active, t.ctx.idle)) = some (true, 2) ∧
    (next? (exec .msgTick (withCtx 3 2 [] 2))).map (fun t => t.ctx.active) = some false := by decide +kernel

/-- L2.6 #8. -/
theorem test_flScan :
    retOf .flScan (withMem [(131071, 0x00)]) = some .dirty ∧
    retOf .flScan (withCfg (fun p => { p with scanLen := 256 }) (withMem [(131071, 0x00)])) = some .clean := by decide +kernel

/-- R250: SW is inside the operation; nothing is unlocked yet. -/
theorem test_flErase :
    (next? (exec .flErase (withMem [(0, 0x12)]))).map (fun t => (t.fl.op, t.fl.locked, t.fl.phase)) = some (.erase, true, .ready) := by
  decide +kernel

/-- L2.6 #3 and #11. -/
theorem test_flWrite :
    retOf (.flWrite 2 [0x56]) (withMem [(0, 0x12), (1, 0x34)]) = some (.err .notClean) ∧
    refusal? (exec (.flWrite 131071 [0x00, 0x00]) State.reset) = some .outsideRegion := by decide +kernel

/-- L2.6 #6 and the entry of #10. -/
theorem test_flWrite_enters :
    retOf (.flWrite 0 []) State.reset = some .ok ∧
    (next? (exec (.flWrite 131071 [0x00]) State.reset)).map (fun t => (t.fl.op, t.fl.offset, t.fl.data)) =
      some (.write, 131071, [0x00]) := by decide +kernel

/-- L2.6 #2. -/
theorem test_flRead : retOf (.flRead 0 3) (withMem [(0, 0x12), (1, 0x34)]) = some (.bytes [0x12, 0x34, 0xFF]) := by decide +kernel

/-- L2.6 #14 and #15. -/
theorem test_flBoot :
    (next? (exec .flBoot (withMem [(5, 0x00)]))).map (fun t => t.fl.op) = some .erase ∧ retOf .flBoot State.reset = some .ok := by
  decide +kernel

/-- L2.7 #1 and #7. -/
theorem test_wdgArm :
    (next? (exec (.wdgArm 4) State.reset)).map State.wdg = some { armed := true, timeout := 4, cnt := 0 } ∧
    refusal? (exec (.wdgArm 8) (armed 4 0)) = some .alreadyArmed := by decide +kernel

/-- L2.7 #1 and #6. -/
theorem test_wdgFeed :
    (next? (exec .wdgFeed (armed 4 3))).map (fun t => t.wdg.cnt) = some 0 ∧
    (next? (exec .wdgFeed State.reset)).map State.wdg = some State.reset.wdg := by decide +kernel

/-- L2.7 #3: no reset at the third tick, a reset at the fourth. -/
theorem test_wdgTick :
    (next? (exec .wdgTick (armed 4 2))).map (fun t => (t.wdg.cnt, t.resets)) = some (3, []) ∧
    (next? (exec .wdgTick (armed 4 3))).map (fun t => (t.wdg.cnt, t.wdg.armed, t.resets)) = some (0, false, [.watchdogTimeout]) := by
  decide +kernel

/-- L2.7 #9, entry. -/
theorem test_hfEnter :
    (next? (exec (.hfEnter 0x08001234 0x08000FF1 [0x00008200, 0x40000000]) State.reset)).map (fun t => (t.hf.phase, t.hf.input)) =
      some (.entered, regs9) := by decide +kernel

/-- L2.7 #11: the second fault. -/
theorem test_hfEnter_again :
    (next? (exec (.hfEnter 0 0 [0, 0]) (withHf .entered false))).map (fun t => (t.hf.phase, t.hf.stuck, t.hf.input)) =
      some (.entered, true, regs9) := by decide +kernel

/-- L2.7 #9, capture. -/
theorem test_hfCapture :
    (next? (exec .hfCapture (withHf .entered false))).map (fun t => (t.hf.phase, t.hf.record)) =
      some (.captured, { valid := true, regs := regs9 }) := by decide +kernel

/-- L2.7 #9 and #12. -/
theorem test_hfLog :
    (next? (exec .hfLog (withHf .captured true))).map (fun t => (t.hf.phase, t.log)) = some (.logged, [.hardFault regs9]) ∧
    refusal? (exec .hfLog State.reset) = some .hfOutOfOrder := by decide +kernel

/-- L2.7 #9: the record is dropped, or kept with `RETAIN_FAULT`. -/
theorem test_hfReset :
    (next? (exec .hfReset (withHf .logged true))).map (fun t => (t.hf.phase, t.hf.record.valid, t.resets)) =
      some (.idle, false, [.hardFault]) ∧
    (next? (exec .hfReset (withCfg (fun p => { p with retainFault := true }) (withHf .logged true)))).map (fun t => t.hf.record) =
      some { valid := true, regs := regs9 } := by decide +kernel

/-- L2.7, SYS.RESET: the volatile state goes, the region stays. -/
theorem test_sysReset :
    (next? (exec (.sysReset .external) ((armed 4 2).setFl (Fl.reset [(0, 0x12)])))).map (fun t => (t.wdg.armed, t.fl.mem, t.resets)) =
      some (false, [(0, 0x12)], [.external]) ∧
    decOf (.sysReset .powerOn) (withDec .escaped [0xAA]) = some { st := .idle, acc := [] } := by decide +kernel

/-- R112: a reset by a fault cause comes from HF.RESET and from the expiring WDG.TICK only (log 27). -/
theorem test_sysReset_raised :
    refusal? (exec (.sysReset .hardFault) (withHf .captured true)) = some .resetNotRaised ∧
    refusal? (exec (.sysReset .watchdogTimeout) (armed 4 2)) = some .resetNotRaised ∧
    (next? (exec (.sysReset .hardFault) (withHf .logged true))).map State.resets = some [.hardFault] ∧
    (next? (exec (.sysReset .watchdogTimeout) (armed 4 3))).map State.resets = some [.watchdogTimeout] := by decide +kernel

/-- L2.6, the phase trace of #4 and of #2, phase by phase. -/
theorem test_flcUnlock :
    (next? (exec .flcUnlock (State.reset.setFl { Fl.reset [] with op := .erase }))).map (fun t => (t.fl.phase, t.fl.locked)) =
      some (.eUnlocked, false) ∧
    (next? (exec .flcUnlock (State.reset.setFl { Fl.reset [] with op := .write }))).map (fun t => t.fl.phase) =
      some .wUnlocked ∧
    refusal? (exec .flcUnlock State.reset) = some .phaseNotEnabled := by decide +kernel

theorem test_flcSelectErase :
    (next? (exec .flcSelectErase (withPhase .eUnlocked false .none false []))).map (fun t => (t.fl.phase, t.fl.mode, t.fl.sector)) =
      some (.eSelected, .sectorErase, 0) := by decide +kernel

theorem test_flcStartErase :
    (next? (exec .flcStartErase (withPhase .eSelected false .sectorErase false []))).map (fun t => (t.fl.phase, t.fl.busy)) =
      some (.eBusy, true) ∧
    refusal? (exec .flcStartErase (withPhase .eSelected true .sectorErase false [])) = some .phaseNotEnabled := by decide +kernel

/-- R254: what holds whatever the draw. -/
theorem test_flcCompleteErase :
    (next? (exec .flcCompleteErase (withPhase .eBusy false .sectorErase true [(0, 0x12)]))).map
      (fun t => (t.fl.phase, t.fl.busy, t.fl.complete)) = some (.eDone, false, true) := by decide +kernel

theorem test_flcLock :
    (next? (exec .flcLock (withPhase .eDone false .sectorErase false []))).map (fun t => (t.ret, t.fl.phase, t.fl.locked)) =
      some (.ok, .ready, true) ∧
    refusal? (exec .flcLock (withPhase .eBusy false .sectorErase true [])) = some .phaseNotEnabled ∧
    refusal? (exec .flcLock (withWrite .wMode false 1 [])) = some .phaseNotEnabled := by decide +kernel

theorem test_flcSelectProgram :
    (next? (exec .flcSelectProgram (withPhase .wUnlocked false .none false []))).map (fun t => (t.fl.phase, t.fl.mode)) =
      some (.wMode, .program) := by decide +kernel

theorem test_flcProgramUnit :
    (next? (exec (.flcProgramUnit 1) (withWrite .wMode false 1 []))).map (fun t => (t.fl.phase, t.fl.busy)) = some (.wBusy 1, true) ∧
    refusal? (exec (.flcProgramUnit 0) (withWrite .wMode false 1 [])) = some .phaseNotEnabled := by decide +kernel

/-- R263: what holds whatever the draw. -/
theorem test_flcCompleteUnit :
    (next? (exec (.flcCompleteUnit 1) (withWrite (.wBusy 1) true 1 []))).map (fun t => (t.fl.phase, t.fl.busy, t.fl.unit)) =
      some (.wMode, false, 2) := by decide +kernel

/-- R262, L2.6 #9: programming clears bits only. -/
theorem test_program_and :
    memProg [(1000, 0xF0)] 1000 [0x0F] = [(1000, 0x00)] ∧ memProg [] 0 [0x12, 0x34] = [(0, 0x12), (1, 0x34)] ∧
    memProg [(0, 0x12)] 0 [0xFF] = [(0, 0x12)] := by decide

theorem test_flcVerify :
    retOf .flcVerify (withWrite .wMode false 2 [(0, 0x12), (1, 0x34)]) = some (.bool true) ∧
    retOf .flcVerify (withWrite .wMode false 2 [(0, 0x12), (1, 0x30)]) = some (.bool false) := by decide +kernel

/-- L2.3, one cell each: #1 at 0, #3 at 1, #7 at 2, #4 at 1, #16 at 2, #1 at 1, #13 at 2, #10 at 3. -/
theorem test_cells_idle :
    decOf .decIdleFlag (withDec .idle []) = some { st := .inFrame, acc := [] } ∧
    decOf (.decIdleOther 0x7D) (withDec .idle []) = some { st := .idle, acc := [] } := by decide +kernel

theorem test_cells_inFrame :
    retOf .decInFrameFlagNonempty (withDec .inFrame [0x55]) = some (.err .truncated) ∧
    decOf .decInFrameFlagEmpty (withDec .inFrame []) = some { st := .inFrame, acc := [] } ∧
    decOf .decInFrameEsc (withDec .inFrame [0xAA]) = some { st := .escaped, acc := [0xAA] } ∧
    decOf (.decInFrameData 0xAA) (withDec .inFrame []) = some { st := .inFrame, acc := [0xAA] } := by decide +kernel

theorem test_cells_escaped :
    decOf (.decEscapedNonFlag 0x7D) (withDec .escaped []) = some { st := .inFrame, acc := [0x5D] } ∧
    retOf .decEscapedFlag (withDec .escaped [0xAA]) = some (.err .truncated) ∧
    refusal? (exec .decEscapedFlag (withDec .idle [])) = some .cellNotSelected := by decide +kernel

/-- L2.3 #1 and #12, L2.4: bytes and pairs as they arrive. -/
theorem test_wireBytes :
    decOf .wireFlag (withDec .idle []) = some { st := .inFrame, acc := [] } ∧
    decOf .wireEsc (withDec .inFrame []) = some { st := .escaped, acc := [] } ∧
    decOf (.wireData 0x5E) (withDec .inFrame []) = some { st := .inFrame, acc := [0x5E] } := by decide +kernel

theorem test_wirePairs :
    decOf .pairEscFlag (withDec .inFrame []) = some { st := .inFrame, acc := [0x7E] } ∧
    decOf .pairEscEsc (withDec .inFrame []) = some { st := .inFrame, acc := [0x7D] } ∧
    decOf (.pairEscAny 0x8A) (withDec .inFrame []) = some { st := .inFrame, acc := [0xAA] } ∧
    retOf .pairAbort (withDec .inFrame [0xAA]) = some (.err .truncated) := by decide +kernel

/-- L2.5, MSG.RECV #10, the first fragment of three; and #8. -/
theorem test_msgHeader :
    (next? (exec (.msgHeader 0x0004 0x21 3 0 1 [0x00]) State.reset)).map (fun t => (t.ctx.active, t.ctx.nextIdx, t.ctx.buf)) =
      some (true, 1, [0x00]) ∧
    retOf (.msgHeader 0x0003 7 0 0 1 [0xAA]) State.reset = some (.err .malformedHeader) := by decide +kernel

/-- L2.5, MSG.RECV #1 to #4. -/
theorem test_commands :
    retOf (.cmdAck 0 []) State.reset = some (.ack 0 []) ∧ retOf (.cmdNak 1 []) State.reset = some (.nak 1 []) ∧
    txOf (.cmdPing 7 [0xAA]) State.reset =
      some [0x7E, 0x03, 0x00, 0x07, 0x01, 0x00, 0x00, 0x00, 0x01, 0x00, 0xAA, 0xB9, 0xBB, 0x7E] ∧
    retOf (.cmdRaw 5 [0x00]) State.reset = some (.raw 5 [0x00]) ∧
    retOf (.cmdUnknown 9 7 []) State.reset = some (.err .unknownCommand) := by decide +kernel

/-- R330: returned and logged, with the state of its column; refused where the operation does not return it (log 17). -/
theorem test_errors_frame :
    decOf .errTruncated (withDec .escaped [0xAA]) = some { st := .idle, acc := [] } ∧
    retOf .errOverflow (withCfg (fun p => { p with maxBody := 2 }) (withDec .inFrame [1, 2])) = some (.err .overflow) ∧
    (next? (exec .errCrcMismatch (withDec .inFrame [0, 0]))).map (fun t => (t.log, t.decOut)) =
      some ([.error .crcMismatch], [.err .crcMismatch]) ∧
    refusal? (exec .errTruncated State.reset) = some .errorNotRaised ∧
    refusal? (exec .errCrcMismatch (withDec .inFrame [0xFF, 0xFF])) = some .errorNotRaised := by decide +kernel

theorem test_errors_message :
    (next? (exec .errFragmentOutOfOrder (withCtx 2 1 [] 0))).map (fun t => (t.ctx.active, t.ret)) =
      some (false, .err .fragmentOutOfOrder) ∧
    (next? (exec .errReassemblyBusy (withCtx 3 1 [] 0))).map (fun t => t.ctx.active) = some true ∧
    refusal? (exec .errReassemblyBusy State.reset) = some .errorNotRaised ∧
    retOf .errMalformedHeader State.reset = some (.err .malformedHeader) ∧
    (next? (exec .errUnknownCommand State.reset)).map State.decOut = some [] := by decide +kernel

theorem test_errors_flash :
    retOf .errNotClean (withMem [(0, 0x12)]) = some (.err .notClean) ∧
    refusal? (exec .errNotClean State.reset) = some .errorNotRaised ∧
    (next? (exec .errEraseFailed (withErr (withPhase .eDone false .sectorErase false [])))).map
      (fun t => (t.ret, t.fl.locked, t.fl.phase)) = some (.err .eraseFailed, true, .ready) ∧
    refusal? (exec .errEraseFailed (withPhase .eDone false .sectorErase false [])) = some .errorNotRaised ∧
    (next? (exec .errProgramFailed (withErr (withWrite .wMode false 1 [])))).map (fun t => (t.ret, t.fl.locked)) =
      some (.err .programFailed, true) := by decide +kernel

theorem test_errors_faults :
    (next? (exec (.errHardFault 1 2 [3, 4]) State.reset)).map (fun t => t.hf.phase) = some .entered ∧
    (next? (exec .errWatchdogTimeout (armed 4 3))).map (fun t => (t.wdg.armed, t.resets)) = some (false, [.watchdogTimeout]) ∧
    refusal? (exec .errWatchdogTimeout (armed 4 2)) = some .resetNotRaised := by decide +kernel

/-- A step runs the word on the port as the first instruction after reset. -/
theorem test_step_runs_word :
    (next? (step (State.reset.withFetchWord 8 0x50))).map State.ret = some .clean ∧
    (next? (step (State.reset.withFetchWord 16 0x7D7E))).map (fun t => t.port) = some [] := by decide +kernel

/-- The tasks run, and the port presents one request. -/
def atPort (s : State) (i : Instr) : State := (s.setPort [encode i]).setBoot .tasks

/-- R375: from reset the first step arms the watchdog and the second is FL.BOOT; a task's request waits until then. -/
theorem test_step_boots :
    (next? (step State.reset)).map (fun t => (t.wdg, t.boot)) = some ({ armed := true, timeout := 4, cnt := 0 }, .store) ∧
    (next? (step ((armed 4 0).setBoot .store))).map (fun t => (t.ret, t.boot)) = some (.ok, .tasks) ∧
    (next? (step (State.reset.setPort [encode (.decPush 0x7E)]))).map (fun t => (t.port, t.boot)) =
      some ([encode (.decPush 0x7E)], .store) := by decide +kernel

/-- R312, R372: a reset ends the run; SW is at the start of its boot sequence and the next run's requests take the place of the rest. -/
theorem test_step_reset_restarts :
    (next? (step { armed 4 3 with port := [encode .wdgTick, encode .flErase], runs := [[encode .flScan]] })).map
      (fun t => (t.boot, t.port, t.runs)) = some (.arm, [encode .flScan], []) := by decide +kernel

/-- R380, U21: the transmit path frames, and does not reset the decoder; a cell is RXSRC's. -/
theorem test_step_issuers :
    (next? (step ((armed 4 0).setPort [{ encode (.encEscape [0x7E]) with agent := .swTx }]))).map State.ret =
      some (.bytes [0x7D, 0x5E]) ∧
    refusal? (step ((armed 4 0).setPort [{ encode .decReset with agent := .swTx }])) = some .wrongIssuer ∧
    refusal? (step ((armed 4 0).setPort [{ encode .decIdleFlag with agent := .dec }])) = some .wrongIssuer := by decide +kernel

/-! ## Witnesses: for each obligation with hypotheses, a state and operands that meet them, clause by clause -/

theorem witness_DecodeReadsBackWhatEncodeWrites :
    (Instr.crcVerify [0xFF, 0xFF]).wellFormed Params.vectors = true ∧ (Instr.pairEscAny 0x5F).wellFormed Params.vectors = true ∧
    (Instr.hfEnter (2 ^ 32 - 1) 0 [0, 2 ^ 32 - 1]).wellFormed Params.vectors = true ∧
    (Instr.cmdUnknown 5 0 []).wellFormed Params.vectors = true ∧ (Instr.wireData 0x7F).wellFormed Params.vectors = true := by decide

theorem witness_EachInstructionHasOneRequest :
    decode { agent := .sw, space := .op, code := [0x33], operands := [.bytes []] } = .ok (.crcVerify []) ∧
    issuerOf (.crcVerify []) = .sw := by decide

theorem witness_ReservedCodesAndWrongIssuersAreRefused :
    decode { agent := .sw, space := .op, code := [0x22], operands := [] } = .error .reservedSelect ∧
    (State.reset.setPort [{ agent := .sw, space := .op, code := [0x22], operands := [] }]).port =
      [{ agent := .sw, space := .op, code := [0x22], operands := [] }] ∧
    decode { agent := .sw, space := .op, code := [0x62], operands := [] } = .ok .wdgTick ∧ mayIssue .sw .wdgTick = false := by decide

/-- A request that runs and one that waits; and each state in which the block moves by itself. -/
theorem witness_StepRunsTheDecodedRequest :
    decode (encode .flScan) = .ok .flScan ∧ mayIssue (encode .flScan).agent .flScan = true ∧ waits .flScan (armed 4 0) = false ∧
    waits .flScan (withHf .entered false) = true ∧ waits .flScan State.reset = true ∧ State.reset.port = [] ∧
    (withHf .logged true).hf.stuck = false ∧ (withPhase .eDone false .sectorErase false []).hf.phase = .idle ∧
    (withPhase .eDone false .sectorErase false []).fl.complete = true ∧ (beginErase State.reset).fl.op ≠ .none ∧
    (withWrite .wMode false 1 []).fl.busy = false ∧ State.reset.boot = .arm ∧ (armed 4 0).boot = .tasks := by decide +kernel

/-- SW's request at exception level, inside a phase, and inside an operation not yet unlocked; a phase of SW at exception level. -/
theorem witness_SoftwareHasNoStepWhileItMustWait :
    decode (encode .flScan) = .ok .flScan ∧ isSoftware (issuerOf .flScan) = true ∧
    mayIssue (encode .flScan).agent .flScan = true ∧ mayIssue (encode .flcLock).agent .flcLock = true ∧
    (atPort (withHf .entered false) .flScan).hf.phase ≠ .idle ∧
    (next? (step (atPort (withHf .entered false) .flScan))).map State.resets = some [] ∧
    (atPort (withPhase .eUnlocked false .none false []) .flScan).fl.phase ≠ .ready ∧
    (next? (step (atPort (withPhase .eUnlocked false .none false []) .flScan))).map State.resets = some [] ∧
    (next? (step (atPort (State.reset.setFl (beginErase State.reset).fl) .flScan))).map State.port = some [encode .flScan] ∧
    isSoftwarePhase .flcLock = true ∧
    (next? (step (atPort (withHf .entered false) .flcLock))).map (fun t => (t.port, t.resets)) = some ([encode .flcLock], []) := by
  decide +kernel

/-- For ControlBytesMoveTheDecoder, IdleDiscardsAndDecResetClears and CellsAreDecPushWhereSelected: the states of the decoder's table. -/
theorem witness_decoder_states :
    (withDec .idle []).dec.st = .idle ∧ (withDec .inFrame []).dec.acc = [] ∧ (withDec .inFrame [0x55]).dec.acc ≠ [] ∧
    (withDec .inFrame [0x55]).dec.acc.length = 1 ∧ (withDec .escaped []).dec.st = .escaped ∧ (0x7D : Byte) ≠ 0x7E := by decide

theorem witness_DecPushAppendsOrOverflows :
    (withDec .inFrame []).dec.st = .inFrame ∧ (0x7F : Byte) ≠ 0x7E ∧ (0x7F : Byte) ≠ 0x7D ∧
    (withCfg (fun p => { p with maxBody := 2 }) (withDec .inFrame [1, 2])).dec.acc.length = 2 ∧
    (withDec .escaped []).dec.st = .escaped ∧ (0x7D : Byte) ≠ 0x7E := by decide

/-- A candidate of two bytes and no payload, verifying and not; one with a payload. -/
theorem witness_ClosingFlagCompletesTheCandidate :
    (withDec .inFrame [0xFF, 0xFF]).dec.acc = [] ++ [0xFF, 0xFF] ∧ crc16 [] = le16 0xFF 0xFF ∧ crc16 [] ≠ le16 0 0 ∧
    (withDec .inFrame [0xAA, 0xD7, 0x05]).dec.acc = [0xAA] ++ [0xD7, 0x05] ∧ (withDec .inFrame [1]).dec.acc.length = 1 := by
  decide +kernel

theorem witness_EscapePairStandsForItsByte :
    (withDec .inFrame []).dec.st = .inFrame ∧ (withDec .inFrame []).dec.acc.length < (withDec .inFrame []).cfg.maxBody ∧
    (withCfg (fun p => { p with maxBody := 2 }) (withDec .inFrame [1])).dec.acc.length <
      (withCfg (fun p => { p with maxBody := 2 }) (withDec .inFrame [1])).cfg.maxBody := by decide

theorem witness_DecoderErrorsLeaveTheBaseline :
    retOf (.decPush 0x7E) (withDec .escaped []) = some (.err .truncated) ∧
    retOf (.decPush 0x7E) (withDec .inFrame [0, 0]) = some (.err .crcMismatch) := by decide +kernel

theorem witness_DecodeOfEncodeIsThePayload :
    (List.replicate 265 (0x7E : Byte)).length + 2 ≤ State.reset.cfg.maxBody ∧ ([] : Bytes).length + 2 ≤ State.reset.cfg.maxBody := by
  decide +kernel

theorem witness_StepKeepsTheDecoderSafe :
    DecSafe (atPort (withDec .inFrame [1]) (.decPush 2)) ∧ (next? (step (atPort (withDec .inFrame [1]) (.decPush 2)))).isSome = true := by
  exact ⟨⟨by decide, by decide⟩, by decide +kernel⟩

/-- For CrcVerifyChecksTheTrailer and CrcVerifyIsZeroResidue: the shortest body, and the two too short. -/
theorem witness_CrcVerify :
    ([0xFF, 0xFF] : Bytes).length = 2 ∧ ([] : Bytes).length < 2 ∧ ([0xFF] : Bytes).length < 2 := by decide

theorem witness_CrcIsLinear : ([0x01, 0x02] : Bytes).length = ([0xFF, 0x00] : Bytes).length := by decide

/-- The changed byte first, and last. -/
theorem witness_OneChangedByteIsDetected :
    (0xFF : Byte) ≠ 0xFE ∧ exec (.crcVerify ([] ++ 0xFF :: [0xFF])) State.reset = .next { State.reset with ret := .bool true } ∧
    exec (.crcVerify ([0xFF] ++ 0xFF :: [])) State.reset = .next { State.reset with ret := .bool true } := by
  refine ⟨by decide, ?_, ?_⟩ <;> exact congrArg (fun b => Host.Outcome.next (State.reset.setRet (.bool b)))
    (show crcVerifies [0xFF, 0xFF] = true by decide +kernel)

theorem witness_EncFrameEmitsTheEscapedFrame :
    ∃ (esc : Byte → Bytes) (trailer f : Bytes),
      (esc = fun b => if b = 0x7E ∨ b = 0x7D then [0x7D, b ^^^ 0x20] else [b]) ∧
      trailer = [lo8 (crc16 [0xAA]), hi8 (crc16 [0xAA])] ∧ f = [0x7E] ++ ([0xAA] ++ trailer).flatMap esc ++ [0x7E] :=
  ⟨_, _, _, rfl, rfl, rfl⟩

theorem witness_FramesHaveFlagsOnlyAtTheirEnds :
    retOf (.encFrame [0x7D] true) State.reset = some (.bytes [0x7E, 0x7D, 0x5D, 0xE5, 0xA7, 0x7E]) := by decide +kernel

/-- The most and the first too many bytes of a message. -/
theorem witness_MsgSendEmitsOneFramePerFragment :
    (∃ p : Bytes, p.length ≤ 16776960) ∧ (∃ p : Bytes, 16776960 < p.length) ∧ fragCount 16776960 = 65535 ∧
    fragCount 16776961 = 65536 :=
  ⟨⟨List.replicate 16776960 0, Nat.le_of_eq List.length_replicate⟩,
    ⟨List.replicate 16776961 0, Nat.lt_of_lt_of_eq (by decide) List.length_replicate.symm⟩, by decide, by decide⟩

theorem witness_FragmentsRebuildThePayload :
    ([1] : Bytes) ≠ [] ∧ 0 + 1 < fragCount 257 ∧ fragCount 256 = 1 ∧ fragCount 0 = 1 ∧ fragCount 600 = 3 := by decide

theorem witness_MalformedHeadersAreDropped :
    ([0x03, 0x00, 0x07, 0x01, 0x00, 0x00, 0x00, 0x02] : Bytes).length < 9 ∧ 256 < (257 : Half).toNat ∧
    (1 : Half).toNat ≠ ([] : Bytes).length ∧ (1 : Half).toNat ≤ (1 : Half).toNat ∧ (0 : Half).toNat ≤ (0 : Half).toNat := by decide

theorem witness_OneFragmentMessageIsDispatched :
    (0 : Half).toNat = ([] : Bytes).length ∧ (256 : Half).toNat = (List.replicate 256 (0 : Byte)).length ∧
    (List.replicate 256 (0 : Byte)).length ≤ 256 := by decide +kernel

/-- No context; an index other than 0; the largest message the buffer holds, and one fragment more. -/
theorem witness_FirstFragmentAllocatesTheContext :
    State.reset.ctx.active = false ∧ (1 : Half).toNat < (2 : Half).toNat ∧ (1 : Half) ≠ 0 ∧
    ¬State.reset.cfg.maxMessage < (256 : Half).toNat * 256 ∧ State.reset.cfg.maxMessage < (257 : Half).toNat * 256 := by decide

/-- An earlier index, and a later one. -/
theorem witness_WrongFragmentsAreRejected :
    (withCtx 3 1 [] 0).ctx.active = true ∧ (0x22 : Byte) ≠ (withCtx 3 1 [] 0).ctx.id ∧ (0 : Half) ≠ (withCtx 3 1 [] 0).ctx.nextIdx ∧
    (2 : Half) ≠ (withCtx 3 1 [] 0).ctx.nextIdx ∧ (2 : Half).toNat < (3 : Half).toNat ∧ 2 ≤ (3 : Half).toNat ∧
    (0 : Half).toNat = ([] : Bytes).length := by decide

theorem witness_AnotherCountIsOutOfOrder :
    (withCtx 3 1 [] 0).ctx.active = true ∧ (2 : Half) ≠ (withCtx 3 1 [] 0).ctx.count ∧ (4 : Half) ≠ (withCtx 3 1 [] 0).ctx.count ∧
    (1 : Half).toNat < (2 : Half).toNat ∧ 2 ≤ (2 : Half).toNat ∧ (0 : Half).toNat = ([] : Bytes).length := by decide

theorem witness_ExpectedFragmentIsStoredOrDelivered :
    (withCtx 3 1 [] 0).ctx.nextIdx.toNat + 1 < (withCtx 3 1 [] 0).ctx.count.toNat ∧
    (withCtx 3 2 [] 0).ctx.nextIdx.toNat + 1 = (withCtx 3 2 [] 0).ctx.count.toNat ∧ 2 ≤ (withCtx 3 2 [] 0).ctx.count.toNat := by decide

theorem witness_CommandsAreHandled :
    ([0xAA] : Bytes).length ≤ 16776960 ∧ (5 : Half) ≠ 1 ∧ (5 : Half) ≠ 2 ∧ (5 : Half) ≠ 3 ∧ (5 : Half) ≠ 4 ∧ (0 : Half) ≠ 1 := by
  decide

theorem witness_IdleTicksReleaseTheContext :
    State.reset.ctx.active = false ∧ (withCtx 3 1 [] 0).ctx.active = true ∧
    (withCtx 3 1 [] 0).ctx.idle + 2 < State.reset.cfg.reasmTimeout ∧ 0 < State.reset.cfg.reasmTimeout := by decide

/-- One fragment, and as many as the buffer holds. -/
theorem witness_ReceivingWhatWasSentDispatchesIt :
    State.reset.ctx.active = false ∧ 256 * fragCount ([] : Bytes).length ≤ State.reset.cfg.maxMessage ∧
    256 * fragCount 65536 ≤ State.reset.cfg.maxMessage := by decide

theorem witness_StepKeepsTheContextSafe :
    CtxSafe (atPort (withCtx 2 1 [7] 0) .msgTick) ∧ (next? (step (atPort (withCtx 2 1 [7] 0) .msgTick))).isSome = true :=
  ⟨fun _ => by decide, by decide +kernel⟩

/-- For ScanReportsAnyProgrammedByte, EraseAndBootEnterTheSequence, WriteChecksThenEntersTheSequence and ReadReturnsTheRegionsBytes:
ready; Dirty by the last byte scanned, and Clean; not ready; inside an operation. -/
theorem witness_flash_entry :
    State.reset.fl.phase = .ready ∧ State.reset.fl.op = .none ∧ memGet (withMem [(131071, 0xFE)]).fl.mem 131071 ≠ 0xFF ∧
    131071 < State.reset.cfg.scanLen ∧ (∀ a, memGet State.reset.fl.mem a = 0xFF) ∧
    (withPhase .eBusy false .sectorErase true []).fl.phase ≠ .ready ∧ (beginErase State.reset).fl.op ≠ .none :=
  ⟨rfl, rfl, by decide, by decide, fun _ => rfl, by decide, by decide⟩

/-- The last byte of the region, one past it, and operands off the units of a build with `PROG_UNIT = 4`. -/
theorem witness_WriteChecksThenEntersTheSequence :
    State.reset.cfg.flashSize < 131071 + ([0, 0] : Bytes).length ∧ 131071 + ([0] : Bytes).length ≤ State.reset.cfg.flashSize ∧
    2 % (withCfg (fun p => { p with progUnit := 4 }) State.reset).cfg.progUnit ≠ 0 ∧
    ([0] : Bytes).length % (withCfg (fun p => { p with progUnit := 4 }) State.reset).cfg.progUnit ≠ 0 ∧
    131071 % State.reset.cfg.progUnit = 0 := by decide

theorem witness_ReadReturnsTheRegionsBytes :
    131071 + 1 ≤ State.reset.cfg.flashSize ∧ 131072 + 0 ≤ State.reset.cfg.flashSize ∧ State.reset.cfg.flashSize < 131072 + 1 := by
  decide

theorem witness_PhasesUnlockSelectAndStart :
    State.reset.fl.locked = true ∧ State.reset.fl.keystep = 0 ∧ (beginErase State.reset).fl.op ≠ .none ∧ State.reset.fl.op = .none ∧
    ((beginErase State.reset).setFl { (beginErase State.reset).fl with keystep := 1 }).fl.keystep ≠ 0 ∧
    State.reset.cfg.flashKey1 ≠ State.reset.cfg.flashKey2 ∧
    (withPhase .eUnlocked false .none false []).fl.phase = .eUnlocked ∧
    (withPhase .eSelected false .sectorErase false []).fl.locked = false ∧
    (withPhase .wUnlocked false .none false []).fl.phase = .wUnlocked ∧
    (withWrite .wMode false 1 []).fl.mode = .program ∧ (withWrite .wMode false 1 []).fl.err = false ∧
    (withWrite .wMode false 1 []).fl.busy = false ∧ (withWrite .wMode false 1 []).fl.unit ≠ 0 ∧
    1 < (withWrite .wMode false 1 []).fl.data.length / (withWrite .wMode false 1 []).cfg.progUnit ∧
    (withWrite .wMode false 1 []).fl.data.length / (withWrite .wMode false 1 []).cfg.progUnit ≤ 2 ∧
    (withPhase .wMode true .program false []).fl.locked = true := by decide

/-- For EraseCompletes and UnitCompletes: the last unit of a write, and another unit in progress. -/
theorem witness_completions :
    (withPhase .eBusy false .sectorErase true [(0, 0x12)]).fl.phase = .eBusy ∧
    (withPhase .eBusy false .sectorErase true [(0, 0x12)]).fl.mem.wf ∧ (withWrite (.wBusy 1) true 1 []).fl.phase = .wBusy 1 ∧
    (withWrite (.wBusy 1) true 1 []).fl.mem.wf ∧ (withWrite (.wBusy 1) true 1 []).fl.phase ≠ .wBusy 0 ∧
    State.reset.fl.phase ≠ .eBusy ∧
    (1 + 1) * (withWrite (.wBusy 1) true 1 []).cfg.progUnit ≤ (withWrite (.wBusy 1) true 1 []).fl.data.length := by decide

theorem witness_VerifyAndLockEndTheSequence :
    (withWrite .wMode false 2 []).fl.unit = (withWrite .wMode false 2 []).fl.data.length / (withWrite .wMode false 2 []).cfg.progUnit ∧
    (withWrite .wMode false 2 []).fl.busy = false ∧ (withWrite .wMode false 2 []).fl.err = false ∧
    (withWrite .wMode false 1 []).fl.unit ≠ (withWrite .wMode false 1 []).fl.data.length / (withWrite .wMode false 1 []).cfg.progUnit ∧
    (withWrite .wMode false 2 []).fl.offset + (withWrite .wMode false 2 []).fl.data.length ≤ State.reset.cfg.flashSize ∧
    (withPhase .eDone false .sectorErase false []).fl.complete = true ∧
    (State.reset.setFl { Fl.reset [] with phase := .eDone }).fl.complete = false ∧
    (withWrite .wVerify false 2 []).fl.phase = .wVerify ∧ (withErr (withWrite .wMode false 1 [])).fl.err = true := by decide

theorem witness_EraseRunsToItsEnd :
    (withMem [(0, 0x12)]).fl.phase = .ready ∧ (withMem [(0, 0x12)]).fl.op = .none ∧ (withMem [(0, 0x12)]).fl.locked = true ∧
    (withMem [(0, 0x12)]).fl.keystep = 0 := by decide

/-- A region of one byte that is being erased. -/
def oneByte (m : Memory) : State := withCfg (fun p => { p with flashSize := 1 }) (withPhase .eBusy false .sectorErase true m)

/-- A region of one byte, being erased: whatever the draws, one of two contents changes. -/
theorem witness_RegionChangesOnlyWhileBusy :
    ∃ (s t : State), exec .flcCompleteErase s = .next t ∧ memGet t.fl.mem 0 ≠ memGet s.fl.mem 0 := by
  have run (m : Memory) : ∃ t, exec .flcCompleteErase (oneByte m) = .next t ∧ t.fl.mem = erasedMem (oneByte m) := ⟨_, rfl, rfl⟩
  have hmem (m : Memory) (hm : m.wf) :
      memGet (erasedMem (oneByte m)) 0 =
        if Config.drawFail 0 then Config.drawByte 0 0 else erasedByte := by
    unfold erasedMem
    split
    · next h => exact ((memGet_memDraw hm _ 0 1 0).trans (if_pos ⟨Nat.le_refl 0, by decide⟩)).trans (if_pos h).symm
    · next h => exact (if_neg h).symm
  by_cases h : (if Config.drawFail 0 then Config.drawByte 0 0 else erasedByte) = erasedByte
  · obtain ⟨t, ht, hm⟩ := run [(0, 0x12)]
    refine ⟨_, t, ht, ?_⟩
    rw [hm, hmem _ (by decide), h]; decide
  · obtain ⟨t, ht, hm⟩ := run []
    exact ⟨_, t, ht, by rw [hm, hmem _ wf_nil]; exact h⟩

/-- Unit 1 of a write in progress, on an otherwise erased region. -/
theorem witness_StepKeepsTheWriteProgress :
    WriteProgress (withWrite (.wBusy 1) true 1 [(0, 0x12)]) ∧
    (∃ t, exec (.flcCompleteUnit 1) (withWrite (.wBusy 1) true 1 [(0, 0x12)]) = .next t) ∧
    (next? (step (atPort State.reset .flErase))).isSome = true := by
  refine ⟨⟨⟨⟨by decide, by decide⟩, ⟨rfl, rfl, rfl, rfl, rfl, rfl, by decide⟩, rfl, fun _ => by decide⟩, fun _ _ _ a _ => ?_⟩, ⟨_, rfl⟩, by decide +kernel⟩
  by_cases h : a = 0
  · subst h; rfl
  · have h1 : memGet [(0, 0x12)] a = erasedByte := by simp [memGet, Ne.symm h]
    have h2 : ¬(0 ≤ a ∧ a < 0 + 1 * 1) := by omega
    exact h1.trans (if_neg h2).symm

theorem witness_ResetRestartsTheBlock :
    (withWrite (.wBusy 1) true 1 [(0, 0x12)]).fl.mem.wf ∧ (withWrite (.wBusy 1) true 1 [(0, 0x12)]).fl.phase = .wBusy 1 ∧
    (withPhase .eBusy false .sectorErase true []).fl.phase = .eBusy ∧ State.reset.fl.phase ≠ .eBusy ∧
    State.reset.cfg.retainFault = false ∧ (withCfg (fun p => { p with retainFault := true }) State.reset).cfg.retainFault = true ∧
    Cause.external ≠ .powerOn ∧ State.reset.fl.mem.wf ∧
    (withHf .logged true).hf.phase = .logged ∧ (withHf .logged true).hf.stuck = false ∧
    (armed 4 3).wdg.timeout ≤ (armed 4 3).wdg.cnt + 1 ∧ (armed 4 2).wdg.cnt + 1 < (armed 4 2).wdg.timeout := by decide

/-- A Clean region and a Dirty one at the start of the boot sequence; requests that wait for its arming and for FL.BOOT. -/
theorem witness_BootArmsThenEntersEraseWhenDirty :
    State.reset.boot = .arm ∧ State.reset.port = [] ∧ State.reset.hf.phase = .idle ∧ State.reset.wdg.armed = false ∧
    0 < State.reset.cfg.wdgTimeout ∧ (withMem [(131071, 0)]).fl.phase = .ready ∧ (withMem [(131071, 0)]).fl.op = .none ∧
    (withMem [(131071, 0)]).boot = .arm ∧ memGet (withMem [(131071, 0)]).fl.mem 131071 ≠ 0xFF ∧
    Instr.wdgArm 5 ≠ .wdgArm State.reset.cfg.wdgTimeout ∧ mayIssue .sw (.wdgArm 5) = true ∧ isSoftware (issuerOf .flScan) = true ∧
    ((armed 4 0).setBoot .store).boot = .store ∧ Instr.flScan ≠ .flBoot := by decide

theorem witness_WatchdogArmsFeedsAndTicks :
    State.reset.wdg.armed = false ∧ 0 < 1 ∧ (armed 4 2).wdg.armed = true ∧ (armed 4 2).wdg.cnt + 1 < (armed 4 2).wdg.timeout ∧
    (armed 4 3).wdg.timeout ≤ (armed 4 3).wdg.cnt + 1 := by decide

theorem witness_WatchdogFiresOnceAtTheTimeout :
    (armed 4 0).wdg.armed = true ∧ (armed 4 0).wdg.cnt = 0 ∧ 3 < (armed 4 0).wdg.timeout ∧ (armed 4 0).wdg.timeout ≤ 4 ∧
    (armed 4 0).cfg.feedPeriod < (armed 4 0).wdg.timeout := by decide

theorem witness_HardFaultSteps :
    faultRegsOk State.reset.cfg regs9.pc regs9.lr regs9.fsr = true ∧ State.reset.hf.phase = .idle ∧
    faultRegsOk State.reset.cfg (2 ^ 32) 0 [0, 0] = false ∧ (withHf .entered false).hf.stuck = false ∧
    (withHf .captured true).hf.record.valid = true ∧ (withHf .logged true).hf.phase = .logged ∧
    (enterHardFault regs9 (withHf .entered false)).hf.stuck = true := by decide

theorem witness_HardFaultSequenceLogsAndResets :
    faultRegsOk State.reset.cfg regs9.pc regs9.lr regs9.fsr = true ∧ State.reset.hf.phase = .idle ∧ State.reset.hf.stuck = false ∧
    State.reset.cfg.retainFault = false ∧ (withCfg (fun p => { p with retainFault := true }) State.reset).cfg.retainFault = true := by
  decide

theorem witness_SecondFaultLeavesOnlyTheWatchdog :
    (enterHardFault regs9 (withHf .entered false)).hf.phase ≠ .idle ∧ (enterHardFault regs9 (withHf .entered false)).hf.stuck = true ∧
    decode (encode .flScan) = .ok .flScan ∧ mayIssue (encode .flScan).agent .flScan = true ∧ isSoftware (issuerOf .flScan) = true ∧
    (enterHardFault regs9 (withHf .entered false)).wdg.armed = false := by decide

theorem witness_ExceptionLevelEndsOnlyInReset :
    (withHf .logged true).hf.phase ≠ .idle ∧ (next? (exec .hfReset (withHf .logged true))).map (fun t => t.hf.phase) = some .idle ∧
    (next? (exec (.hfEnter 0 0 [0, 0]) State.reset)).map (fun t => t.hf.phase) = some .entered := by decide +kernel

theorem witness_UnitsOwnTheirState :
    (next? (exec (.decPush 0x7E) State.reset)).map (fun t => (t.resets, t.dec)) = some ([], { st := .inFrame, acc := [] }) ∧
    (next? (exec .flErase State.reset)).map (fun t => (t.resets, t.fl.op)) = some ([], .erase) := by decide +kernel

/-- Each row's condition, met and not met. -/
theorem witness_ErrorsAreRaised :
    (withDec .escaped []).dec.st = .escaped ∧ (withDec .inFrame [1]).dec.acc.length = 1 ∧
    (withCfg (fun p => { p with maxBody := 2 }) (withDec .inFrame [1, 2])).dec.acc.length = 2 ∧
    (withDec .inFrame [0, 0]).dec.acc = [] ++ [0, 0] ∧ (withCtx 3 1 [] 0).ctx.active = true ∧ State.reset.ctx.active = false ∧
    memGet (withMem [(0, 0x12)]).fl.mem 0 ≠ 0xFF ∧ (beginErase State.reset).fl.op ≠ .none ∧
    (withErr (withPhase .eDone false .sectorErase false [])).fl.complete = true ∧
    (withErr (withWrite .wMode false 1 [])).fl.busy = false ∧ faultRegsOk State.reset.cfg 1 2 [3, 4] = true ∧
    (armed 4 3).wdg.timeout ≤ (armed 4 3).wdg.cnt + 1 ∧ (armed 4 2).wdg.cnt + 1 < (armed 4 2).wdg.timeout ∧
    (∃ f : Fl, f = lockedFl State.reset.fl) := ⟨by decide, by decide, by decide, by decide, by decide, by decide, by decide, by decide,
    by decide, by decide, by decide, by decide, by decide, _, rfl⟩

/-- An armed watchdog one tick before its expiry, the machine after reset, and a captured fault. -/
theorem witness_StepKeepsTheMonitorSafe :
    WdgSafe (armed 4 3) ∧ HfSafe (armed 4 3) ∧ WdgSafe State.reset ∧ HfSafe (withHf .captured true) ∧
    (next? (step (armed 4 3))).isSome = true ∧ (next? (step State.reset)).isSome = true := by
  refine ⟨⟨by decide, by decide, by decide⟩, ⟨by decide, by decide, by decide, by decide⟩, ⟨by decide, by decide, by decide⟩,
    ⟨by decide, by decide, by decide, by decide⟩, by decide +kernel, by decide +kernel⟩

end Sys2Proof.Tests
end

section
/-! The frame encoder: ENC.FRAME and ENC.ESCAPE (40_frame_encoder.md). -/

namespace Sys2Proof.Machine

/-- ENC.FRAME is never refused: the frame goes to TX and is the result (R130, R132). -/
theorem exec_encFrame (payload : Bytes) (useCrc : Bool) (s : State) :
    exec (.encFrame payload useCrc) s =
      .next ((s.emitTx (frameBytes s.cfg payload useCrc)).setRet (.bytes (frameBytes s.cfg payload useCrc))) := rfl

/-- ENC.ESCAPE only answers its result; TX stays (R133). -/
theorem exec_encEscape (data : Bytes) (s : State) :
    exec (.encEscape data) s = .next (s.setRet (.bytes (escapeBytes data))) := rfl

/-- Escaping works on each byte alone, whatever stands before it. -/
theorem escapeBytes_eq_flatMap (data : Bytes) : escapeBytes data = data.flatMap escapeByte := by
  induction data with
  | nil => rfl
  | cons b rest ih => rw [escapeBytes, ih, List.flatMap_cons]

/-- The trailer follows the payload before the escaping, so it is escaped too (R91, R93). -/
theorem frameBytes_eq_flatMap (p : Params) (payload : Bytes) (useCrc : Bool) :
    frameBytes p payload useCrc =
      [flagByte] ++ (payload ++ frameTrailer p payload useCrc).flatMap escapeByte ++ [flagByte] := by
  rw [frameBytes, escapeBytes_eq_flatMap]

/-- Settles O24: the escaping is bytewise, and the statement's `esc`, trailer and flag are the model's written out. -/
theorem encFrameEmitsTheEscapedFrame : Obligations.EncFrameEmitsTheEscapedFrame := by
  intro s payload useCrc esc trailer f hesc htrailer hf
  have esc_eq : esc = escapeByte := hesc
  have trailer_eq : trailer = frameTrailer s.cfg payload useCrc := htrailer
  have frame_eq : frameBytes s.cfg payload useCrc = f := by
    rw [frameBytes_eq_flatMap, hf, esc_eq, trailer_eq]; rfl
  constructor
  · rw [exec_encFrame, frame_eq]; rfl
  · rw [exec_encEscape, escapeBytes_eq_flatMap, esc_eq]; rfl

end Sys2Proof.Machine
end

section
/-! The CRC engine: CRC.BLOCK, CRC.UPDATE and CRC.APPEND (42_crc.md). -/

namespace Sys2Proof.Machine

/-- CRC.BLOCK is never refused and changes only the result (R183). -/
theorem exec_crcBlock (data : Bytes) (s : State) : exec (.crcBlock data) s = .next (s.setRet (.word (crc16 data))) := rfl

/-- CRC.UPDATE is never refused and changes only the result (R182). -/
theorem exec_crcUpdate (c : Half) (b : Byte) (s : State) :
    exec (.crcUpdate c b) s = .next (s.setRet (.word (crcStep c b))) := rfl

/-- CRC.APPEND is never refused and changes only the result (R184). -/
theorem exec_crcAppend (data : Bytes) (s : State) :
    exec (.crcAppend data) s = .next (s.setRet (.bytes (data ++ crcTrailer data))) := rfl

/-- Without a byte the CRC is `CRC_INIT`: nothing is XORed in at the end (R183). -/
theorem crc16_nil : crc16 [] = crcInit := rfl

/-- The last byte is taken last, from the CRC of the bytes before it (R183). -/
theorem crc16_concat (data : Bytes) (b : Byte) : crc16 (data ++ [b]) = crcStep (crc16 data) b := by
  rw [crc16, crc16, List.foldl_concat]

/-- Settles O19: the CRC the statement asks for is `crc16 d`; one more byte is one more step of the fold. -/
theorem crcBlockFoldsAndAppendAddsTheTrailer : Obligations.CrcBlockFoldsAndAppendAddsTheTrailer := by
  intro s d
  have block_nil : exec (.crcBlock []) s = .next { s with ret := .word 0xFFFF } := by
    rw [exec_crcBlock, crc16_nil]; rfl
  have block_concat (b : Byte) : exec (.crcBlock (d ++ [b])) s = exec (.crcUpdate (crc16 d) b) s := by
    rw [exec_crcBlock, exec_crcUpdate, crc16_concat]
  exact ⟨block_nil, crc16 d, exec_crcBlock d s, block_concat, exec_crcAppend d s⟩

end Sys2Proof.Machine
end

section
/-! The message layer: MSG.SEND, the dispatch of the command codes, and MSG.RECV of a fragment for an active context
(43_message_layer.md). -/

namespace Sys2Proof.Machine

/-! ## Sending -/

/-- MSG.SEND is `sendMessage`, which the echo of a Ping runs too (R200, R222). -/
theorem exec_msgSend (command : Half) (id : Byte) (payload : Bytes) (s : State) :
    exec (.msgSend command id payload) s = sendMessage command id payload s := rfl

/-- The fragment count fits its 16-bit field up to `65535 * FRAG_MAX` bytes (R201). -/
theorem fragCount_le_iff (n : Nat) : fragCount n ≤ 65535 ↔ n ≤ 16776960 := by
  unfold fragCount fragMax
  omega

/-- A message whose fragments can be counted is sent and answered `Ok` (R200). -/
theorem sendMessage_of_le {payload : Bytes} (h : payload.length ≤ 16776960) (command : Half) (id : Byte) (s : State) :
    sendMessage command id payload s = .next ((s.emitTx (messageFrames s.cfg command id payload)).setRet .ok) :=
  if_pos ((fragCount_le_iff _).mpr h)

/-- A longer message is refused (R201). -/
theorem sendMessage_of_lt {payload : Bytes} (h : 16776960 < payload.length) (command : Half) (id : Byte) (s : State) :
    sendMessage command id payload s = .refused .messageTooLong :=
  if_neg (by rw [fragCount_le_iff]; omega)

/-- TX carries the frame of each fragment, in the order of the fragments (R200). -/
theorem messageFrames_eq_flatten (p : Params) (command : Half) (id : Byte) (payload : Bytes) :
    messageFrames p command id payload =
      ((List.range (fragCount payload.length)).map fun i =>
        frameBytes p (fragmentPayload command id payload (fragCount payload.length) i) p.useCrc).flatten := by
  rw [messageFrames, messagePayloads, List.map_map]
  rfl

/-- Settles O26: `count` is `fragCount` and `frame i` the frame of `fragmentPayload`, header written out. -/
theorem msgSendEmitsOneFramePerFragment : Obligations.MsgSendEmitsOneFramePerFragment := by
  intro s command id payload count frame hcount hframe
  have count_eq : count = fragCount payload.length := hcount
  have frame_eq : frame = fun i => frameBytes s.cfg (fragmentPayload command id payload count i) s.cfg.useCrc := hframe
  rw [exec_msgSend]
  constructor
  · intro hle
    rw [sendMessage_of_le hle, messageFrames_eq_flatten, frame_eq, count_eq]
    rfl
  · intro hlt
    exact sendMessage_of_lt hlt command id s

/-! ## Dispatch -/

/-- `Ack` is an event for the issuer and sends nothing (R221). -/
theorem exec_cmdAck (id : Byte) (data : Bytes) (s : State) : exec (.cmdAck id data) s = .next (s.setRet (.ack id data)) := rfl

/-- So is `Nak` (R221). -/
theorem exec_cmdNak (id : Byte) (data : Bytes) (s : State) : exec (.cmdNak id data) s = .next (s.setRet (.nak id data)) := rfl

/-- So is `Raw`, with its payload untouched (R223). -/
theorem exec_cmdRaw (id : Byte) (data : Bytes) (s : State) : exec (.cmdRaw id data) s = .next (s.setRet (.raw id data)) := rfl

/-- `Ping` sends the message it received (R222). -/
theorem exec_cmdPing (id : Byte) (data : Bytes) (s : State) : exec (.cmdPing id data) s = sendMessage 0x0003 id data s := rfl

/-- A code with no handler is dropped (R224). -/
theorem exec_cmdUnknown {command : Half} (h1 : command ≠ 1) (h2 : command ≠ 2) (h3 : command ≠ 3) (h4 : command ≠ 4)
    (id : Byte) (data : Bytes) (s : State) :
    exec (.cmdUnknown command id data) s = .next (droppedState .unknownCommand s) := by
  have dispatched : exec (.cmdUnknown command id data) s = dispatch command id data s := rfl
  rw [dispatched, dispatch, if_neg h1, if_neg h2, if_neg h3, if_neg h4, handleUnknown, raiseError_dropped (by simp)]

/-- Settles O34: one equation per row; the bytes of the echo are those of MSG.SEND. -/
theorem commandsAreHandled : Obligations.CommandsAreHandled := by
  intro s command id data
  refine ⟨exec_cmdAck id data s, exec_cmdNak id data s, exec_cmdRaw id data s, ?echo, ?sent, ?unknown⟩
  case echo => rw [exec_cmdPing, exec_msgSend]
  case sent =>
    intro hle
    exact ⟨messageFrames s.cfg 0x0003 id data, by rw [exec_cmdPing, sendMessage_of_le hle]; rfl⟩
  case unknown =>
    intro h1 h2 h3 h4
    exact exec_cmdUnknown h1 h2 h3 h4 id data s

/-! ## Receiving -/

/-- A payload whose header passes the validation of R210 reaches the tests of R332. -/
theorem exec_msgRecv_of_valid {command count index length : Half} {id : Byte} {data : Bytes}
    (hlength : length.toNat = data.length) (hmax : data.length ≤ 256) (hindex : index.toNat < count.toNat) (s : State) :
    exec (.msgRecv (headerBytes command id count index length ++ data)) s =
      acceptFragment { command, id, count, index, length, data } s := by
  have valid : headerValid { command, id, count, index, length, data } = true := by
    simp [headerValid, fragMax, hlength, hmax, hindex]
  have received : exec (.msgRecv (headerBytes command id count index length ++ data)) s =
      receive (headerBytes command id count index length ++ data) s := rfl
  simp only [received, receive, parseHeader_headerBytes, valid, if_true]

/-- While a context is active, the `ID` of a longer message's fragment decides first (R214). -/
theorem acceptFragment_of_active {h : Header} {s : State} (hactive : s.ctx.active = true) (hcount : 2 ≤ h.count.toNat) :
    acceptFragment h s =
      if h.id ≠ s.ctx.id then .next (droppedState .reassemblyBusy s) else matchFragment h s := by
  have not_one : h.count ≠ 1 := by
    intro one
    rw [one] at hcount
    exact absurd hcount (by decide)
  have not_idle : s.ctx.active ≠ false := by simp [hactive]
  rw [acceptFragment, if_neg not_one, if_neg not_idle, raiseError_dropped (by simp)]

/-- Another index than the next releases the context (R216). -/
theorem matchFragment_of_index_ne {h : Header} {s : State} (hindex : h.index ≠ s.ctx.nextIdx) :
    matchFragment h s = .next (droppedState .fragmentOutOfOrder (s.setCtx { s.ctx with active := false })) := by
  rw [matchFragment, if_pos (.inr hindex), raiseError_fragmentOutOfOrder]

/-- The expected count and index are stored (R217). -/
theorem matchFragment_of_expected {h : Header} {s : State} (hcount : h.count = s.ctx.count)
    (hindex : h.index = s.ctx.nextIdx) : matchFragment h s = storeFragment h.data s := by
  rw [matchFragment, if_neg (by simp [hcount, hindex])]

/-- Settles O31: the `ID` is tested first, then the index of the same message. -/
theorem wrongFragmentsAreRejected : Obligations.WrongFragmentsAreRejected := by
  intro s command count index length id data hactive hlength hmax hvalid hlong
  rw [exec_msgRecv_of_valid hlength hmax hvalid, acceptFragment_of_active hactive hlong]
  constructor
  · intro hid
    exact if_pos hid
  · intro hid _ hindex
    rw [if_neg (not_not.mpr hid), matchFragment_of_index_ne hindex]
    rfl

/-- The extended context is complete exactly when the fragment stored was the last one (R31, R218). Below the count the next index
does not wrap. -/
theorem contextComplete_extended_iff {c : Ctx} (h : c.nextIdx.toNat < c.count.toNat) (data : Bytes) :
    contextComplete (extended c data) = true ↔ c.nextIdx.toNat + 1 = c.count.toNat := by
  have no_wrap : (c.nextIdx + 1).toNat = c.nextIdx.toNat + 1 := by bv_omega
  rw [contextComplete, extended, beq_iff_eq, ← BitVec.toNat_inj, no_wrap]

/-- A fragment that does not complete the message only extends the context (R217). -/
theorem storeFragment_of_incomplete {data : Bytes} {s : State} (h : contextComplete (extended s.ctx data) = false) :
    storeFragment data s = .next ((s.setCtx (extended s.ctx data)).setRet .nothing) := by
  simp [storeFragment, h]

/-- The final fragment releases the context and dispatches what it holds: the first fragment's command, the whole message (R218). -/
theorem storeFragment_of_complete {data : Bytes} {s : State} (h : contextComplete (extended s.ctx data) = true) :
    storeFragment data s =
      exec (readCommandCode s.ctx.cmd s.ctx.id (s.ctx.buf ++ data))
        (s.setCtx { extended s.ctx data with active := false }) := by
  simp only [storeFragment, h, if_true, dispatch_eq_exec]
  rfl

/-- Settles O33: the expected fragment passes every test of R332, and the stored index says whether it was the final one. -/
theorem expectedFragmentIsStoredOrDelivered : Obligations.ExpectedFragmentIsStoredOrDelivered := by
  intro s command length data hactive hlength hmax hvalid hlong
  have complete_iff := contextComplete_extended_iff hvalid data
  rw [exec_msgRecv_of_valid hlength hmax hvalid, acceptFragment_of_active hactive hlong, if_neg (not_not.mpr rfl),
    matchFragment_of_expected rfl rfl]
  constructor
  · intro hnot_last
    have incomplete : contextComplete (extended s.ctx data) = false := by
      rw [← Bool.not_eq_true, complete_iff]
      omega
    rw [storeFragment_of_incomplete incomplete]
    rfl
  · intro hlast
    rw [storeFragment_of_complete (complete_iff.mpr hlast)]
    rfl

end Sys2Proof.Machine
end

section
/-! The flash store: FL.SCAN of a region with no operation in progress (44_flash.md). -/

namespace Sys2Proof.Machine

/-- The unit is idle exactly when it is ready and SW is inside no operation (R273). -/
theorem flIdle_iff (f : Fl) : flIdle f = true ↔ f.phase = .ready ∧ f.op = .none := by
  simp [flIdle]

/-- On an idle unit an FL operation is what it does behind R273's requirement. -/
theorem whenFlIdle_of_ready {s : State} (hphase : s.fl.phase = .ready) (hop : s.fl.op = .none)
    (k : Host.Outcome State Fault Refusal) : whenFlIdle s k = k :=
  if_pos ((flIdle_iff s.fl).mpr ⟨hphase, hop⟩)

/-- The region is Dirty by any byte of the prefix that is not erased (R241, R242). -/
theorem regionDirty_of_exists {s : State} (h : ∃ a, a < s.cfg.scanLen ∧ memGet s.fl.mem a ≠ 0xFF) : regionDirty s = true :=
  (scanDirty_iff s.fl.mem s.cfg.scanLen).mpr h

/-- It is Clean when every byte of the prefix is erased (R241, R242). -/
theorem regionDirty_of_forall {s : State} (h : ∀ a, a < s.cfg.scanLen → memGet s.fl.mem a = 0xFF) : regionDirty s = false := by
  rw [← Bool.not_eq_true, regionDirty, scanDirty_iff]
  rintro ⟨a, ha, programmed⟩
  exact programmed (h a ha)

/-- FL.SCAN of an idle unit answers the scan and changes only the result (R241). -/
theorem exec_flScan_of_ready {s : State} (hphase : s.fl.phase = .ready) (hop : s.fl.op = .none) :
    exec .flScan s = .next (s.setRet (if regionDirty s then .dirty else .clean)) :=
  whenFlIdle_of_ready hphase hop _

/-- Settles O38: the scan, which looks at the listed bytes only, misses no programmed byte of the prefix (`scanDirty_iff`). -/
theorem scanReportsAnyProgrammedByte : Obligations.ScanReportsAnyProgrammedByte := by
  intro s hphase hop
  rw [exec_flScan_of_ready hphase hop]
  constructor
  · intro dirty
    rw [regionDirty_of_exists dirty]
    rfl
  · intro clean
    rw [regionDirty_of_forall clean]
    rfl

end Sys2Proof.Machine
end

section
/-! The fault and watchdog monitor: the four steps of the hardfault sequencer (45_monitor.md). -/

namespace Sys2Proof.Machine

/-! ## The sequencer's place -/

/-- Out of its phase, or stuck, the sequencer has no step (R306 to R308, R310). -/
theorem sequencerAt_eq_false_iff (p : HfPhase) (s : State) :
    sequencerAt p s = false ↔ s.hf.phase ≠ p ∨ s.hf.stuck = true := by
  rw [← Bool.not_eq_true, sequencerAt_iff, not_and_or, Bool.not_eq_false]

/-! ## The trap entry -/

/-- The entry from software level latches the registers (R305). -/
theorem enterHardFault_of_idle {s : State} (h : s.hf.phase = .idle) (regs : FaultRegs) :
    enterHardFault regs s = s.setHf { s.hf with phase := .entered, input := regs } := if_pos h

/-- A second fault stops the sequencer where it is (R310). -/
theorem enterHardFault_of_running {s : State} (h : s.hf.phase ≠ .idle) (regs : FaultRegs) :
    enterHardFault regs s = s.setHf { s.hf with stuck := true } := if_neg h

/-- HF.ENTER with registers that fit the build is the trap entry (R305). -/
theorem exec_hfEnter_of_regsOk {pc lr : Nat} {fsr : List Nat} {s : State} (h : faultRegsOk s.cfg pc lr fsr = true) :
    exec (.hfEnter pc lr fsr) s = .next (enterHardFault { pc, lr, fsr } s) := if_pos h

/-- HF.ENTER with other registers is refused (log 19). -/
theorem exec_hfEnter_of_regsBad {pc lr : Nat} {fsr : List Nat} {s : State} (h : faultRegsOk s.cfg pc lr fsr = false) :
    exec (.hfEnter pc lr fsr) s = .refused .faultRegsWidth := if_neg (Bool.eq_false_iff.mp h)

/-! ## Capture, log and reset -/

/-- HF.CAPTURE makes the latched registers the record (R306). -/
theorem exec_hfCapture_of_entered {s : State} (h : sequencerAt .entered s = true) :
    exec .hfCapture s = .next (s.setHf { s.hf with record := { valid := true, regs := s.hf.input }, phase := .captured }) :=
  if_pos h

theorem exec_hfCapture_of_not_entered {s : State} (h : sequencerAt .entered s = false) :
    exec .hfCapture s = .refused .hfOutOfOrder := if_neg (Bool.eq_false_iff.mp h)

/-- HF.LOG puts a valid record in the log (R307). -/
theorem exec_hfLog_of_captured {s : State} (h : sequencerAt .captured s = true) (hvalid : s.hf.record.valid = true) :
    exec .hfLog s = .next ((s.emitLog (.hardFault s.hf.record.regs)).setHf { s.hf with phase := .logged }) :=
  (if_pos h).trans (if_pos hvalid)

theorem exec_hfLog_of_not_captured {s : State} (h : sequencerAt .captured s = false) :
    exec .hfLog s = .refused .hfOutOfOrder := if_neg (Bool.eq_false_iff.mp h)

/-- HF.RESET is the system reset with its cause (R308). -/
theorem exec_hfReset_of_logged {s : State} (h : sequencerAt .logged s = true) :
    exec .hfReset s = .next (systemReset .hardFault s) := if_pos h

theorem exec_hfReset_of_not_logged {s : State} (h : sequencerAt .logged s = false) :
    exec .hfReset s = .refused .hfOutOfOrder := if_neg (Bool.eq_false_iff.mp h)

/-- SYS.RESET where its cause may raise it is the reset (R112, R312). -/
theorem exec_sysReset_of_raised {c : Cause} {s : State} (h : resetRaised c s = true) :
    exec (.sysReset c) s = .next (systemReset c s) := if_pos h

/-- Settles O54: each step is the model's where the sequencer stands in the step's phase and is not stuck, and refused elsewhere. HF.RESET
and SYS.RESET(HardFault) meet in `systemReset`, both raised by the phase after the log. -/
theorem hardFaultSteps : Obligations.HardFaultSteps := by
  intro s pc lr fsr
  have running {p : HfPhase} (hphase : s.hf.phase = p) (hstuck : s.hf.stuck = false) : sequencerAt p s = true :=
    (sequencerAt_iff p s).mpr ⟨hphase, hstuck⟩
  have stopped {p : HfPhase} (h : s.hf.phase ≠ p ∨ s.hf.stuck = true) : sequencerAt p s = false :=
    (sequencerAt_eq_false_iff p s).mpr h
  refine ⟨?latched, ?second, exec_hfEnter_of_regsBad, ?captured, ?logged, ?reset,
    fun h => exec_hfCapture_of_not_entered (stopped h), fun h => exec_hfLog_of_not_captured (stopped h),
    fun h => exec_hfReset_of_not_logged (stopped h)⟩
  case latched =>
    intro hregs hidle
    rw [exec_hfEnter_of_regsOk hregs, enterHardFault_of_idle hidle]
    rfl
  case second =>
    intro hregs hrunning
    rw [exec_hfEnter_of_regsOk hregs, enterHardFault_of_running hrunning]
    rfl
  case captured =>
    intro hphase hstuck
    exact exec_hfCapture_of_entered (running hphase hstuck)
  case logged =>
    intro hphase hstuck hvalid
    exact exec_hfLog_of_captured (running hphase hstuck) hvalid
  case reset =>
    intro hphase hstuck
    have raised : sequencerAt .logged s = true := running hphase hstuck
    exact ⟨systemReset .hardFault s, exec_hfReset_of_logged raised, exec_sysReset_of_raised raised⟩

end Sys2Proof.Machine
end

section
/-! Requests: the encoder against the decoder (30_encoding.md), and what `step` does not take from the port. -/

namespace Sys2Proof

/-! ## Half words and their two bytes -/

/-- The bytes of a half word, low byte first, are the half word again (R11): a header with it in its command field is parsed back. -/
@[simp] theorem le16_lo8_hi8 (v : Half) : le16 (lo8 v) (hi8 v) = v := by
  have parsed := Machine.parseHeader_headerBytes v 0 0 0 0 []
  simp only [headerBytes, Machine.parseHeader, List.cons_append, Option.some.injEq, Machine.Header.mk.injEq] at parsed
  exact parsed.1

/-- The first byte of a half word is its low one (R11). -/
@[simp] theorem lo8_le16 (b0 b1 : Byte) : lo8 (le16 b0 b1) = b0 := by
  ext i
  simp [lo8, le16]

/-- The second byte of a half word is its high one (R11). -/
@[simp] theorem hi8_le16 (b0 b1 : Byte) : hi8 (le16 b0 b1) = b1 := by
  ext i hi
  have high : 8 + i < 16 := by omega
  have low : i < 16 := by omega
  simp [hi8, le16, high, low, BitVec.getLsbD_eq_getElem hi]

/-! ## Select codes and error codes -/

/-- The column "code" of R110 by operation. -/
def selectCode : OpName → Byte
  | .encFrame => 0x10
  | .encEscape => 0x11
  | .decPush => 0x20
  | .decReset => 0x21
  | .crcBlock => 0x30
  | .crcUpdate => 0x31
  | .crcAppend => 0x32
  | .crcVerify => 0x33
  | .msgSend => 0x40
  | .msgRecv => 0x41
  | .msgTick => 0x42
  | .flScan => 0x50
  | .flErase => 0x51
  | .flWrite => 0x52
  | .flRead => 0x53
  | .flBoot => 0x54
  | .wdgArm => 0x60
  | .wdgFeed => 0x61
  | .wdgTick => 0x62
  | .hfEnter => 0x70
  | .hfCapture => 0x71
  | .hfLog => 0x72
  | .hfReset => 0x73
  | .sysReset => 0x7F

/-- No two codes of a table stand for one name. -/
theorem fst_eq_of_lookup {α : Type} {table : List (Byte × α)} {code : α → Byte} (h : ∀ e ∈ table, e.1 = code e.2) {c : Byte} {a : α}
    (hc : table.lookup c = some a) : c = code a := by
  obtain ⟨before, after, split, -⟩ := List.lookup_eq_some_iff.mp hc
  exact h (c, a) (by simp [split])

theorem eq_selectCode_of_opOfCode {c : Byte} {o : OpName} (h : opOfCode c = some o) : c = selectCode o :=
  fst_eq_of_lookup (by decide) h

/-- An operation read from its operands is presented with its select code and the same operands. -/
theorem encodeParts_of_readOp {o : OpName} {ops : List Operand} {i : Instr} (h : readOp o ops = .ok i) :
    encodeParts i = (.op, [selectCode o], ops) := by
  cases o <;>
    · simp only [readOp] at h
      split at h <;> cases h
      rfl

/-- The column "code" of R116 by name. -/
def errorCode : CodeName → Byte
  | .error .truncated => 0x11
  | .error .overflow => 0x12
  | .error .crcMismatch => 0x13
  | .error .malformedHeader => 0x21
  | .error .fragmentOutOfOrder => 0x22
  | .error .reassemblyBusy => 0x23
  | .error .unknownCommand => 0x24
  | .error .notClean => 0x31
  | .error .eraseFailed => 0x32
  | .error .programFailed => 0x33
  | .hardFault => 0x41
  | .watchdogTimeout => 0x42

theorem eq_errorCode_of_nameOfErrorCode {c : Byte} {n : CodeName} (h : nameOfErrorCode c = some n) : c = errorCode n :=
  fst_eq_of_lookup (by decide) h

/-! ## Each code space is read back into what was presented -/

theorem encodeParts_of_readSelect {code : Bytes} {ops : List Operand} {i : Instr} (h : readSelect code ops = .ok i) :
    encodeParts i = (.op, code, ops) := by
  unfold readSelect at h
  split at h
  · split at h
    · next o hc => rw [eq_selectCode_of_opOfCode hc]; exact encodeParts_of_readOp h
    · cases h
  · cases h

theorem encodeParts_of_readPhase {ops : List Operand} {i : Instr} (h : readPhase ops = .ok i) :
    encodeParts i = (.phase, [], ops) := by
  unfold readPhase at h
  split at h <;> cases h <;> rfl

theorem encodeParts_of_readCell {code : Bytes} {ops : List Operand} {i : Instr} (h : readCell code ops = .ok i) :
    encodeParts i = (.cell, code, ops) := by
  unfold readCell at h
  split at h
  · split at h
    · next hc =>
      subst hc
      split at h <;> cases h <;> rfl
    · cases h
  · cases h

theorem encodeParts_readWireByte (b : Byte) : encodeParts (readWireByte b) = (.wire, [b], []) := by
  unfold readWireByte
  split
  · next flag => rw [flag]; rfl
  split
  · next esc => rw [esc]; rfl
  · rfl

theorem encodeParts_readWirePair (b : Byte) : encodeParts (readWirePair b) = (.wire, [escByte, b], []) := by
  unfold readWirePair
  split
  · next canonical => rw [canonical]; rfl
  split
  · next canonical => rw [canonical]; rfl
  split
  · next flag => rw [flag]; rfl
  · rfl

theorem encodeParts_of_readWire {code : Bytes} {i : Instr} (h : readWire code = .ok i) : encodeParts i = (.wire, code, []) := by
  unfold readWire at h
  split at h
  · cases h; exact encodeParts_readWireByte _
  · split at h
    · next esc => cases h; rw [esc]; exact encodeParts_readWirePair _
    · cases h
  · cases h

theorem encodeParts_of_readHeader {code : Bytes} {ops : List Operand} {i : Instr} (h : readHeader code ops = .ok i) :
    encodeParts i = (.header, code, ops) := by
  unfold readHeader at h
  split at h
  · split at h
    · cases h; simp [encodeParts, headerBytes]
    · cases h
  · cases h

/-- A command's code is presented low byte first, whether R103 names it or not. -/
theorem encodeParts_readCommandCode (c : Half) (id : Byte) (data : Bytes) :
    encodeParts (readCommandCode c id data) = (.command, [lo8 c, hi8 c], [.u8 id, .bytes data]) := by
  unfold readCommandCode
  split
  · next ack => rw [ack]; rfl
  split
  · next nak => rw [nak]; rfl
  split
  · next ping => rw [ping]; rfl
  split
  · next raw => rw [raw]; rfl
  · rfl

theorem encodeParts_of_readCommand {code : Bytes} {ops : List Operand} {i : Instr} (h : readCommand code ops = .ok i) :
    encodeParts i = (.command, code, ops) := by
  unfold readCommand at h
  split at h
  · split at h
    · cases h; simp [encodeParts_readCommandCode]
    · cases h
  · cases h

theorem encodeParts_errorInstr (e : ErrorName) : encodeParts (errorInstr e) = (.error, [errorCode (.error e)], []) := by
  cases e <;> rfl

theorem encodeParts_of_readError {code : Bytes} {ops : List Operand} {i : Instr} (h : readError code ops = .ok i) :
    encodeParts i = (.error, code, ops) := by
  unfold readError at h
  split at h
  · split at h
    · cases h
    · next e hc =>
      rw [eq_errorCode_of_nameOfErrorCode hc]
      split at h <;> cases h
      exact encodeParts_errorInstr e
    · next hc =>
      rw [eq_errorCode_of_nameOfErrorCode hc]
      split at h <;> cases h
      rfl
    · next hc =>
      rw [eq_errorCode_of_nameOfErrorCode hc]
      split at h <;> cases h
      rfl
  · cases h

/-- A request that decodes holds the parts of its instruction. -/
theorem encodeParts_of_decode {r : Request} {i : Instr} (h : decode r = .ok i) : encodeParts i = (r.space, r.code, r.operands) := by
  obtain ⟨agent, space, code, operands⟩ := r
  cases space with
  | op => exact encodeParts_of_readSelect h
  | phase =>
    simp only [decode] at h
    split at h
    · exact encodeParts_of_readPhase h
    · cases h
  | cell => exact encodeParts_of_readCell h
  | wire =>
    simp only [decode] at h
    split at h
    · exact encodeParts_of_readWire h
    · cases h
  | header => exact encodeParts_of_readHeader h
  | command => exact encodeParts_of_readCommand h
  | error => exact encodeParts_of_readError h

/-- Settles O2: every part of a request but its agent is fixed by the instruction read from it. -/
theorem eachInstructionHasOneRequest : Obligations.EachInstructionHasOneRequest := by
  intro r i hdecode hagent
  obtain ⟨agent, space, code, operands⟩ := r
  simp only [encode, encodeParts_of_decode hdecode, ← hagent]

/-! ## The other direction -/

/-- The byte of a DATA row is neither of the two that R92 sets apart. -/
theorem readWireByte_of_ne {b : Byte} (hflag : b ≠ flagByte) (hesc : b ≠ escByte) : readWireByte b = .wireData b := by
  rw [readWireByte, if_neg hflag, if_neg hesc]

/-- The second byte of an ESC_ANY row is none of the three that have a row of their own (R93, R94, R159). -/
theorem readWirePair_of_ne {b : Byte} (hflag : b ≠ flagByte) (h5e : b ≠ 0x5E) (h5d : b ≠ 0x5D) : readWirePair b = .pairEscAny b := by
  rw [readWirePair, if_neg h5e, if_neg h5d, if_neg hflag]

theorem readCommandCode_of_unknown {c : Half} (h : knownCommand c = false) (id : Byte) (data : Bytes) :
    readCommandCode c id data = .cmdUnknown c id data := by
  simp only [knownCommand, Bool.or_eq_false_iff, beq_eq_false_iff_ne, ne_eq] at h
  obtain ⟨⟨⟨ack, nak⟩, ping⟩, raw⟩ := h
  rw [readCommandCode, if_neg ack, if_neg nak, if_neg ping, if_neg raw]

/-- Settles O1: a row with a fixed code evaluates; a row of a class of bytes or codes is read back because its operand is in the class. -/
theorem decodeReadsBackWhatEncodeWrites : Obligations.DecodeReadsBackWhatEncodeWrites := by
  intro p i wf
  cases i with
  | wireData b =>
    simp only [Instr.wellFormed, Bool.and_eq_true, decide_eq_true_eq] at wf
    exact congrArg Except.ok (readWireByte_of_ne wf.1 wf.2)
  | pairEscAny b =>
    simp only [Instr.wellFormed, Bool.and_eq_true, decide_eq_true_eq] at wf
    obtain ⟨⟨flag, h5e⟩, h5d⟩ := wf
    exact congrArg Except.ok (readWirePair_of_ne flag h5e h5d)
  | cmdUnknown c id data =>
    have unknown : knownCommand c = false := by simpa [Instr.wellFormed] using wf
    simp [decode, encode, encodeParts, readCommand, readCommandCode_of_unknown unknown]
  | msgHeader => simp [decode, encode, encodeParts, readHeader, headerBytes]
  | _ => rfl

/-- Settles O3: each word evaluates to its row. -/
theorem specWordsDecode : Obligations.SpecWordsDecode := by
  refine ⟨?decPush, ?crcUpdate, ?flWrite, ?pair, ?ping, ?header, ?error⟩ <;> rfl

end Sys2Proof

namespace Sys2Proof.Machine

/-! ## What `step` refuses at the port -/

theorem step_of_reject {s : State} {r : Request} {rest : List Request} {e : Reject} (hport : s.port = r :: rest)
    (hdecode : decode r = .error e) : step s = .refused (.undecodable e) := by
  simp [step, fetch, hport, hdecode]

theorem step_of_wrongIssuer {s : State} {r : Request} {rest : List Request} {i : Instr} (hport : s.port = r :: rest)
    (hdecode : decode r = .ok i) (hissuer : mayIssue r.agent i = false) : step s = .refused .wrongIssuer := by
  simp [step, fetch, hport, hdecode, hissuer]

theorem mayIssue_iff (a : Agent) (i : Instr) : mayIssue a i = true ↔ a = issuerOf i ∨ a = .swTx ∧ isTransmit i = true := by
  simp [mayIssue]

/-- A code outside the column of R110 selects nothing. -/
theorem opOfCode_of_not_mem {c : Byte} (h : c ∉ selectTable.map Prod.fst) : opOfCode c = none := by
  refine List.lookup_eq_none_iff.mpr fun e he => ?_
  rw [bne_iff_ne]
  rintro rfl
  exact h (List.mem_map_of_mem he)

/-- Settles O4: the table's own codes are those the statement lists, and the issuers evaluate. -/
theorem reservedCodesAndWrongIssuersAreRefused : Obligations.ReservedCodesAndWrongIssuersAreRefused := by
  refine ⟨?reserved, fun _ _ _ _ => step_of_wrongIssuer, mayIssue_iff, rfl, fun _ => rfl, rfl, ?cells, fun _ _ _ => rfl, rfl, rfl, rfl,
    rfl, rfl, rfl, rfl, ?software⟩
  case reserved =>
    intro s a c ops rest hcode hport
    have unlisted : c ∉ selectTable.map Prod.fst := hcode
    exact step_of_reject hport (by simp only [decode, readSelect, opOfCode_of_not_mem unlisted])
  case cells =>
    intro b i hi
    simp only [List.mem_cons, List.not_mem_nil, or_false] at hi
    rcases hi with rfl | rfl | rfl | rfl | rfl | rfl | rfl | rfl <;> rfl
  case software =>
    intro s p u c id o n i hi
    simp only [List.mem_cons, List.not_mem_nil, or_false] at hi
    rcases hi with rfl | rfl | rfl | rfl | rfl | rfl | rfl | rfl | rfl | rfl | rfl | rfl | rfl | rfl | rfl | rfl | rfl <;> rfl

end Sys2Proof.Machine
end

section
/-! The CRC engine: CRC.UPDATE as a linear and injective map, and CRC.VERIFY (42_crc.md). -/

namespace Sys2Proof.Machine

/-! ## One shift -/

/-- A shift is linear over XOR: which of the two forms it takes is a bit of its operand (R182, R186). -/
theorem crcShift_xor (x y : Half) : crcShift (x ^^^ y) = crcShift x ^^^ crcShift y := by
  unfold crcShift
  rw [BitVec.getLsbD_xor, BitVec.ushiftRight_xor_distrib]
  cases x.getLsbD 0 <;> cases y.getLsbD 0
  case false.false => rfl
  case false.true => exact BitVec.xor_assoc _ _ _
  case true.false =>
    show (x >>> 1 ^^^ y >>> 1) ^^^ crcPoly = (x >>> 1 ^^^ crcPoly) ^^^ y >>> 1
    ac_rfl
  case true.true =>
    show x >>> 1 ^^^ y >>> 1 = (x >>> 1 ^^^ crcPoly) ^^^ (y >>> 1 ^^^ crcPoly)
    rw [BitVec.xor_comm (y >>> 1), BitVec.xor_assoc, ← BitVec.xor_assoc crcPoly, BitVec.xor_self, BitVec.zero_xor]

/-- A shift loses nothing: the polynomial's top bit, which a shift alone leaves clear, tells that the bit shifted out was set. -/
theorem eq_zero_of_crcShift_eq_zero {x : Half} (h : crcShift x = 0) : x = 0 := by
  unfold crcShift at h
  split at h
  · have top := congrArg (BitVec.getLsbD · 15) h
    simp [crcPoly] at top
  · next low =>
    ext i hi
    rcases Nat.eq_zero_or_pos i with rfl | pos
    · simpa using low
    · have bit := congrArg (BitVec.getLsbD · (i - 1)) h
      simpa [show 1 + (i - 1) = i by omega, BitVec.getLsbD_eq_getElem hi] using bit

/-! ## Eight shifts -/

/-- The eight shifts of R182. -/
def crcShifts (x : Half) : Half := crcShift^[8] x

theorem crcStep_eq_crcShifts (c : Half) (b : Byte) : crcStep c b = crcShifts (c ^^^ b.setWidth 16) := rfl

theorem crcShift_iterate_xor (n : Nat) (x y : Half) : crcShift^[n] (x ^^^ y) = crcShift^[n] x ^^^ crcShift^[n] y := by
  induction n generalizing x y with
  | zero => rfl
  | succ n ih => rw [Function.iterate_succ_apply, crcShift_xor, ih, ← Function.iterate_succ_apply, ← Function.iterate_succ_apply]

theorem crcShifts_xor (x y : Half) : crcShifts (x ^^^ y) = crcShifts x ^^^ crcShifts y := crcShift_iterate_xor 8 x y

theorem crcShifts_zero : crcShifts 0 = 0 := rfl

theorem crcShifts_eq_zero_iff (x : Half) : crcShifts x = 0 ↔ x = 0 := by
  have back (n : Nat) : crcShift^[n] x = 0 → x = 0 := by
    induction n with
    | zero => exact id
    | succ n ih =>
      intro h
      rw [Function.iterate_succ_apply'] at h
      exact ih (eq_zero_of_crcShift_eq_zero h)
  exact ⟨back 8, fun h => h ▸ crcShifts_zero⟩

theorem half_xor_eq_zero_iff (x y : Half) : x ^^^ y = 0 ↔ x = y := BitVec.xor_eq_zero_iff

theorem crcShifts_injective {x y : Half} (h : crcShifts x = crcShifts y) : x = y := by
  rw [← half_xor_eq_zero_iff, ← crcShifts_eq_zero_iff, crcShifts_xor, h, half_xor_eq_zero_iff]

/-- No bit of the high half reaches bit 0 in the shifts before the last, so the polynomial never enters. -/
theorem crcShift_iterate_of_low_zero (n : Nat) (x : Half) (h : ∀ i, i < n → x.getLsbD i = false) : crcShift^[n] x = x >>> n := by
  induction n with
  | zero => simp
  | succ n ih =>
    have low : (x >>> n).getLsbD 0 = false := by simpa using h n (Nat.lt_succ_self n)
    rw [Function.iterate_succ_apply', ih fun i hi => h i (Nat.lt_succ_of_lt hi), crcShift, low, if_neg Bool.false_ne_true,
      BitVec.shiftRight_add]

theorem crcShifts_shiftLeft (b : Byte) : crcShifts (b.setWidth 16 <<< 8) = b.setWidth 16 := by
  rw [crcShifts, crcShift_iterate_of_low_zero 8 _ (by intro i hi; simp [hi])]
  ext i hi
  by_cases low : i < 8
  · simp [show 8 + i < 16 by omega]
  · simp [BitVec.getLsbD_of_ge b i (by omega)]

/-! ## The update -/

/-- An update is linear in the value and the byte together (R186). -/
theorem crcStep_xor (c d : Half) (a b : Byte) : crcStep (c ^^^ d) (a ^^^ b) = crcStep c a ^^^ crcStep d b := by
  rw [crcStep_eq_crcShifts, crcStep_eq_crcShifts, crcStep_eq_crcShifts, ← crcShifts_xor, BitVec.setWidth_xor]
  congr 1
  ac_rfl

theorem crcStep_left_injective {c d : Half} {b : Byte} (h : crcStep c b = crcStep d b) : c = d := by
  have same : c ^^^ b.setWidth 16 = d ^^^ b.setWidth 16 := crcShifts_injective h
  simpa using same

theorem crcStep_right_injective {c : Half} {a b : Byte} (h : crcStep c a = crcStep c b) : a = b := by
  have same : c ^^^ a.setWidth 16 = c ^^^ b.setWidth 16 := crcShifts_injective h
  have wide : a.setWidth 16 = b.setWidth 16 := by simpa using same
  simpa using congrArg (BitVec.setWidth 8) wide

/-- Two updates with the bytes of a half word, low byte first, are sixteen shifts of one XOR. -/
theorem crcStep_crcStep (c : Half) (t0 t1 : Byte) : crcStep (crcStep c t0) t1 = crcShifts (crcShifts (c ^^^ le16 t0 t1)) := by
  have split : le16 t0 t1 = t0.setWidth 16 ^^^ (t1.setWidth 16 <<< 8) := by
    ext i hi
    simp only [le16, BitVec.getElem_or, BitVec.getElem_xor, BitVec.getElem_setWidth, BitVec.getElem_shiftLeft]
    by_cases low : i < 8
    · simp [low]
    · simp [low, BitVec.getLsbD_of_ge t0 i (by omega)]
  rw [split, ← BitVec.xor_assoc, crcShifts_xor, crcShifts_shiftLeft, crcStep_eq_crcShifts, crcStep_eq_crcShifts]

/-- Settles O17: the eight nested shifts are the eighth iterate. -/
theorem crcUpdateIsEightShifts : Obligations.CrcUpdateIsEightShifts := fun c b s => exec_crcUpdate b s c

/-- A half word is its low byte XORed with its high byte moved up. -/
theorem xor_setWidth_shiftRight (x : Half) : x = (x.setWidth 8 : Byte).setWidth 16 ^^^ ((x >>> 8).setWidth 8 : Byte).setWidth 16 <<< 8 := by
  ext i hi
  by_cases low : i < 8
  · simp [low, BitVec.getLsbD_eq_getElem hi]
  · have back : 8 + (i - 8) = i := by omega
    have high : i - 8 < 8 := by omega
    have wide : i - 8 < 16 := by omega
    simp [low, back, high, wide, BitVec.getLsbD_eq_getElem hi]

/-- Settles O18: the eight shifts move the high byte down and look the low byte up, by linearity. -/
theorem crcUpdateHasTheTableForm : Obligations.CrcUpdateHasTheTableForm := by
  intro s c b
  have high : (((c ^^^ b.setWidth 16) >>> 8).setWidth 8 : Byte).setWidth 16 = c >>> 8 := by
    ext i hi
    by_cases low : i < 8
    · simp [low]
    · simp [low, BitVec.getLsbD_of_ge c (8 + i) (by omega)]
  have from_zero (x : Half) : 0 ^^^ x = x := BitVec.zero_xor
  have table : crcStep c b = (c >>> 8) ^^^ crcStep 0 ((c ^^^ b.setWidth 16).setWidth 8) := by
    rw [crcStep_eq_crcShifts, crcStep_eq_crcShifts, from_zero]
    conv_lhs => rw [xor_setWidth_shiftRight (c ^^^ b.setWidth 16), crcShifts_xor, crcShifts_shiftLeft, high]
    exact BitVec.xor_comm _ _
  exact ⟨_, exec_crcUpdate _ _ s, by rw [exec_crcUpdate, table]; rfl⟩

/-! ## The CRC of a sequence -/

theorem crc16_append (d e : Bytes) : crc16 (d ++ e) = e.foldl crcStep (crc16 d) := List.foldl_append

/-- Two sequences of one length, from any two initial values (R186). -/
theorem foldl_crcStep_xor (d e : Bytes) (h : d.length = e.length) (x y : Half) :
    d.foldl crcStep x ^^^ e.foldl crcStep y = (List.zipWith (· ^^^ ·) d e).foldl crcStep (x ^^^ y) := by
  induction d generalizing e x y with
  | nil =>
    cases e with
    | nil => rfl
    | cons => cases h
  | cons a d ih =>
    cases e with
    | nil => cases h
    | cons b e => rw [List.foldl_cons, List.foldl_cons, ih e (by simpa using h), List.zipWith_cons_cons, List.foldl_cons, crcStep_xor]

/-- Settles O22: both sequences start from `CRC_INIT`, which cancels. -/
theorem crcIsLinear : Obligations.CrcIsLinear := by
  intro d e h
  rw [crc16, crc16, foldl_crcStep_xor d e h, BitVec.xor_self]
  rfl

/-- Bytes taken after two different values keep them different. -/
theorem foldl_crcStep_injective (d : Bytes) {x y : Half} (h : d.foldl crcStep x = d.foldl crcStep y) : x = y := by
  induction d generalizing x y with
  | nil => exact h
  | cons b d ih => exact crcStep_left_injective (ih h)

/-- One byte of a sequence changed changes the CRC (R168). -/
theorem crc16_ne_of_ne (pre post : Bytes) {b b' : Byte} (h : b ≠ b') : crc16 (pre ++ b :: post) ≠ crc16 (pre ++ b' :: post) := by
  rw [crc16_append, crc16_append]
  intro same
  exact h (crcStep_right_injective (foldl_crcStep_injective post same))

/-! ## The verification -/

/-- A body of two bytes or more is a payload and its trailer. -/
theorem exists_payload_trailer {body : Bytes} (h : 2 ≤ body.length) : ∃ payload t0 t1, body = payload ++ [t0, t1] := by
  have last : (body.drop (body.length - 2)).length = 2 := by rw [List.length_drop]; omega
  obtain ⟨t0, t1, trailer⟩ := List.length_eq_two.mp last
  exact ⟨body.take (body.length - 2), t0, t1, by rw [← trailer, List.take_append_drop]⟩

@[simp] theorem bodyPayload_append (payload : Bytes) (t0 t1 : Byte) : bodyPayload (payload ++ [t0, t1]) = payload := by
  simp [bodyPayload]

@[simp] theorem bodyTrailer_append (payload : Bytes) (t0 t1 : Byte) : bodyTrailer (payload ++ [t0, t1]) = le16 t0 t1 := by
  simp [bodyTrailer]

/-- What CRC.VERIFY compares (R185). -/
@[simp] theorem crcVerifies_append (payload : Bytes) (t0 t1 : Byte) :
    crcVerifies (payload ++ [t0, t1]) = (crc16 payload == le16 t0 t1) := by
  simp [crcVerifies]

/-- The residue of a body: zero exactly when its trailer is the CRC of its payload (R185). -/
theorem crc16_eq_zero_iff (payload : Bytes) (t0 t1 : Byte) : crc16 (payload ++ [t0, t1]) = 0 ↔ crc16 payload = le16 t0 t1 := by
  have residue : crc16 (payload ++ [t0, t1]) = crcShifts (crcShifts (crc16 payload ^^^ le16 t0 t1)) := by
    rw [crc16_append, ← crcStep_crcStep]; rfl
  rw [residue, crcShifts_eq_zero_iff, crcShifts_eq_zero_iff, half_xor_eq_zero_iff]

theorem crcVerifies_eq_residue {body : Bytes} (h : 2 ≤ body.length) : crcVerifies body = (crc16 body == 0) := by
  obtain ⟨payload, t0, t1, rfl⟩ := exists_payload_trailer h
  rw [Bool.eq_iff_iff, crcVerifies_append, beq_iff_eq, beq_iff_eq, crc16_eq_zero_iff]

/-- CRC.VERIFY answers for two bytes or more (R185). -/
theorem exec_crcVerify_of_le {body : Bytes} (h : 2 ≤ body.length) (s : State) :
    exec (.crcVerify body) s = .next (s.setRet (.bool (crcVerifies body))) := if_neg (by omega)

/-- It is refused for fewer (R185). -/
theorem exec_crcVerify_of_lt {body : Bytes} (h : body.length < 2) (s : State) :
    exec (.crcVerify body) s = .refused .verifyTooShort := if_pos h

/-- Settles O20: CRC.VERIFY compares the CRC that CRC.BLOCK answers for the bytes before the trailer. -/
theorem crcVerifyChecksTheTrailer : Obligations.CrcVerifyChecksTheTrailer := by
  intro s d t0 t1
  refine ⟨⟨crc16 d, exec_crcBlock d s, ?_⟩, fun short => exec_crcVerify_of_lt short s⟩
  rw [exec_crcVerify_of_le (by simp), crcVerifies_append]
  rfl

/-- Settles O21: the residue is what CRC.BLOCK answers for the whole body. -/
theorem crcVerifyIsZeroResidue : Obligations.CrcVerifyIsZeroResidue := by
  intro s body h
  refine ⟨crc16 body, exec_crcBlock body s, ?_⟩
  rw [exec_crcVerify_of_le h, crcVerifies_eq_residue h]
  rfl

/-- A CRC.VERIFY that runs was given a trailer, and answers whether the residue is zero. -/
theorem exec_crcVerify_next {body : Bytes} {s t : State} (h : exec (.crcVerify body) s = .next t) :
    2 ≤ body.length ∧ t = s.setRet (.bool (crc16 body == 0)) := by
  by_cases short : body.length < 2
  · rw [exec_crcVerify_of_lt short] at h; cases h
  · have long : 2 ≤ body.length := by omega
    rw [exec_crcVerify_of_le long, crcVerifies_eq_residue long] at h
    cases h
    exact ⟨long, rfl⟩

/-- Settles O23: the residue of the body is zero, and another byte gives another CRC. -/
theorem oneChangedByteIsDetected : Obligations.OneChangedByteIsDetected := by
  intro s pre post b b' hne hverified
  obtain ⟨long, answer⟩ := exec_crcVerify_next hverified
  have zero : crc16 (pre ++ b :: post) = 0 := by simpa using congrArg State.ret answer.symm
  have changed : crc16 (pre ++ b' :: post) ≠ 0 := fun h => crc16_ne_of_ne pre post hne (zero.trans h.symm)
  have long' : 2 ≤ (pre ++ b' :: post).length := by simpa using long
  rw [exec_crcVerify_of_le long', crcVerifies_eq_residue long', beq_eq_false_iff_ne.mpr changed]
  rfl

end Sys2Proof.Machine
end

section
/-! The frame decoder: DEC.PUSH cell by cell, the cells and the wire rows as its steps (41_frame_decoder.md). -/

namespace Sys2Proof.Machine

/-! ## The cells of DEC.PUSH (R150) -/

/-- DEC.PUSH is never refused. -/
theorem exec_decPush (b : Byte) (s : State) : exec (.decPush b) s = .next (push b s) := rfl

section
variable {s : State} {b : Byte}

theorem push_flag_of_idle (h : s.dec.st = .idle) : push flagByte s = onIdleFlag s := by
  simp only [push, h, classify_flagByte]

theorem push_of_idle (h : s.dec.st = .idle) (hb : b ≠ flagByte) : push b s = onIdleOther s := by
  rcases classify_not_flag hb with hc | hc <;> simp only [push, h, hc]

theorem push_flag_of_empty (h : s.dec.st = .inFrame) (hacc : s.dec.acc = []) : push flagByte s = onFlagEmpty s := by
  simp only [push, h, classify_flagByte, if_pos hacc]

theorem push_flag_of_nonempty (h : s.dec.st = .inFrame) (hacc : s.dec.acc ≠ []) : push flagByte s = onFlagNonempty s := by
  simp only [push, h, classify_flagByte, if_neg hacc]

theorem push_esc_of_inFrame (h : s.dec.st = .inFrame) : push escByte s = onEsc s := by
  simp only [push, h, classify_escByte]

theorem push_data_of_inFrame (h : s.dec.st = .inFrame) (hflag : b ≠ flagByte) (hesc : b ≠ escByte) : push b s = onData b s := by
  simp only [push, h, classify_data hflag hesc]

theorem push_of_escaped (h : s.dec.st = .escaped) (hb : b ≠ flagByte) : push b s = onEscaped b s := by
  rcases classify_not_flag hb with hc | hc <;> simp only [push, h, hc]

theorem push_flag_of_escaped (h : s.dec.st = .escaped) : push flagByte s = onEscapedFlag s := by
  simp only [push, h, classify_flagByte]

end

/-- Settles O7: the four cells of a flag or an escape byte that end no candidate. -/
theorem controlBytesMoveTheDecoder : Obligations.ControlBytesMoveTheDecoder := by
  intro s
  exact ⟨fun h => congrArg _ (push_flag_of_idle h), fun h hacc => congrArg _ (push_flag_of_empty h hacc),
    fun h => congrArg _ (push_esc_of_inFrame h), fun h => congrArg _ (push_flag_of_escaped h)⟩

/-- Settles O9: the cell Idle/other, and DEC.RESET, which is one setter. -/
theorem idleDiscardsAndDecResetClears : Obligations.IdleDiscardsAndDecResetClears := by
  intro s b
  exact ⟨fun h hb => congrArg _ (push_of_idle h hb), rfl⟩

/-! ## Appending and completing -/

/-- `Append` with its two cases in one equation (R157, R160). -/
theorem decAppend_eq (v : Byte) (s : State) :
    decAppend v s =
      if s.dec.acc.length = s.cfg.maxBody then frameErrorState .overflow s
      else { s with dec := { st := .inFrame, acc := s.dec.acc ++ [v] }, ret := .nothing } := rfl

/-- Settles O8: both cells append, the one of an escape the byte XORed with 0x20. -/
theorem decPushAppendsOrOverflows : Obligations.DecPushAppendsOrOverflows := by
  rintro s b v (⟨hst, hflag, hesc, rfl⟩ | ⟨hst, hflag, rfl⟩)
  · rw [exec_decPush, push_data_of_inFrame hst hflag hesc, onData, decAppend_eq]
  · rw [exec_decPush, push_of_escaped hst hflag, onEscaped, decAppend_eq]
    rfl

/-- A candidate of fewer than two bytes is no body (R162). -/
theorem decComplete_of_lt {body : Bytes} (h : body.length < 2) (s : State) : decComplete body s = frameErrorState .truncated s :=
  if_pos h

/-- A candidate with a trailer is checked with CRC on, and delivered without its trailer (R163, R164). -/
theorem decComplete_append (payload : Bytes) (t0 t1 : Byte) (s : State) :
    decComplete (payload ++ [t0, t1]) s =
      if s.cfg.useCrc = true ∧ crc16 payload ≠ le16 t0 t1 then frameErrorState .crcMismatch s
      else { s with ret := .frame payload, decOut := s.decOut ++ [.frame payload] } := by
  have long : ¬(payload ++ [t0, t1]).length < 2 := by simp
  have wrong : (s.cfg.useCrc && !crcVerifies (payload ++ [t0, t1])) = true ↔ s.cfg.useCrc = true ∧ crc16 payload ≠ le16 t0 t1 := by
    simp
  simp only [decComplete, if_neg long, wrong, bodyPayload_append]
  rfl

/-- Settles O10: the closing flag puts the decoder at the baseline and completes what it held. -/
theorem closingFlagCompletesTheCandidate : Obligations.ClosingFlagCompletesTheCandidate := by
  intro s payload t0 t1 hst
  constructor
  · intro hone
    have held : s.dec.acc ≠ [] := by rintro hacc; simp [hacc] at hone
    refine congrArg _ ((push_flag_of_nonempty hst held).trans ?_)
    rw [onFlagNonempty, decComplete_of_lt (by omega)]
    rfl
  · intro hacc
    have held : s.dec.acc ≠ [] := by simp [hacc]
    refine congrArg _ ((push_flag_of_nonempty hst held).trans ?_)
    rw [onFlagNonempty, hacc, decComplete_append]
    rfl

/-! ## The cells as rows -/

/-- A cell that is selected runs (R150). -/
theorem whenSelected_of_true {b : Bool} (h : b = true) (s : State) : whenSelected b s = .next s := if_pos h

/-- One that is not is refused (log 14). -/
theorem whenSelected_of_false {b : Bool} (h : b = false) (s : State) : whenSelected b s = .refused .cellNotSelected := by
  rw [whenSelected, h, if_neg Bool.false_ne_true]

/-- Settles O11: where a cell is selected, DEC.PUSH takes its step; where a part of the selection fails, the row is refused. -/
theorem cellsAreDecPushWhereSelected : Obligations.CellsAreDecPushWhereSelected := by
  intro s b
  have runs {byte : Byte} {t : State} {selected : Prop} [Decidable selected] (hpush : push byte s = t) (h : selected) :
      ∃ t', exec (.decPush byte) s = .next t' ∧ whenSelected (decide selected) t = .next t' :=
    ⟨t, congrArg _ hpush, whenSelected_of_true (decide_eq_true h) t⟩
  have refuses {u : State} {selected : Prop} [Decidable selected] (h : ¬selected) :
      whenSelected (decide selected) u = .refused .cellNotSelected := whenSelected_of_false (decide_eq_false h) u
  refine ⟨fun h => runs (push_flag_of_idle h) h, fun h hb => runs (push_of_idle h hb) ⟨h, hb⟩,
    fun h hacc => runs (push_flag_of_nonempty h hacc) ⟨h, hacc⟩, fun h hacc => runs (push_flag_of_empty h hacc) ⟨h, hacc⟩,
    fun h => runs (push_esc_of_inFrame h) h,
    fun h hflag hesc => runs (push_data_of_inFrame h hflag hesc) ⟨h, classify_data hflag hesc⟩,
    fun h hb => runs (push_of_escaped h hb) ⟨h, hb⟩, fun h => runs (push_flag_of_escaped h) h, ?idle, ?inFrame, ?escaped, ?empty,
    ?nonempty, ?idleFlag, ?dataFlag, ?dataEsc, ?escapedFlag⟩
  case idle => exact fun h => ⟨refuses h, refuses (h ·.1)⟩
  case inFrame => exact fun h => ⟨refuses (h ·.1), refuses (h ·.1), refuses h, refuses (h ·.1)⟩
  case escaped => exact fun h => ⟨refuses (h ·.1), refuses h⟩
  case empty => exact fun hacc => refuses (·.2 hacc)
  case nonempty => exact fun hacc => refuses (hacc ·.2)
  case idleFlag => exact refuses (·.2 rfl)
  case dataFlag => exact refuses fun h => nomatch h.2.symm.trans classify_flagByte
  case dataEsc => exact refuses fun h => nomatch h.2.symm.trans classify_escByte
  case escapedFlag => exact refuses (·.2 rfl)

/-! ## The wire rows -/

/-- Settles O12: a wire row is DEC.PUSH of its bytes in order. -/
theorem wireBytesAreDecoderSteps : Obligations.WireBytesAreDecoderSteps := fun _ _ =>
  ⟨⟨_, rfl, rfl⟩, ⟨_, rfl, rfl⟩, ⟨_, rfl, rfl⟩, ⟨_, _, rfl, rfl, rfl⟩, ⟨_, _, rfl, rfl, rfl⟩, ⟨_, _, rfl, rfl, rfl⟩,
    ⟨_, _, rfl, rfl, rfl⟩⟩

/-- In a frame with room, 0x7D and a byte append the byte XORed with 0x20, whichever byte it is but a flag (R93, R94). -/
theorem pushPair_of_inFrame {s : State} {b : Byte} (hst : s.dec.st = .inFrame) (hroom : s.dec.acc.length < s.cfg.maxBody)
    (hb : b ≠ flagByte) :
    pushPair escByte b s = { s with dec := { st := .inFrame, acc := s.dec.acc ++ [b ^^^ escXor] }, ret := .nothing } := by
  have room : ¬(onEsc s).dec.acc.length = (onEsc s).cfg.maxBody := Nat.ne_of_lt hroom
  have escaped : (onEsc s).dec.st = .escaped := rfl
  rw [pushPair, push_esc_of_inFrame hst, push_of_escaped escaped hb, onEscaped, decAppend_eq, if_neg room]
  rfl

/-- Settles O13: the three pairs append; after 0x7D a flag is the cell Escaped/FLAG. -/
theorem escapePairStandsForItsByte : Obligations.EscapePairStandsForItsByte := by
  intro s b hst hroom
  refine ⟨congrArg _ (pushPair_of_inFrame hst hroom (by decide)), congrArg _ (pushPair_of_inFrame hst hroom (by decide)),
    fun hb => congrArg _ (pushPair_of_inFrame hst hroom hb), congrArg Host.Outcome.next ?abort⟩
  have escaped : (onEsc s).dec.st = .escaped := rfl
  rw [pushPair, push_esc_of_inFrame hst, push_flag_of_escaped escaped]
  rfl

/-! ## Errors -/

/-- The errors of the decoder (R330). -/
theorem of_errorFamily_frame {e : ErrorName} (h : errorFamily e = .frame) : e = .truncated ∨ e = .overflow ∨ e = .crcMismatch := by
  cases e with
  | truncated => exact .inl rfl
  | overflow => exact .inr (.inl rfl)
  | crcMismatch => exact .inr (.inr rfl)
  | _ => cases h

/-- Settles O14: of the three things a decoder step can do, one returns an error. -/
theorem decoderErrorsLeaveTheBaseline : Obligations.DecoderErrorsLeaveTheBaseline := by
  intro s t b e hexec hret
  rw [exec_decPush] at hexec
  cases hexec
  rcases push_cases b s with ⟨d, moved, -⟩ | ⟨e', family, raised⟩ | ⟨p, delivered⟩
  · rw [moved] at hret; cases hret
  · rw [raised] at hret ⊢
    cases hret
    exact ⟨rfl, of_errorFamily_frame family⟩
  · rw [delivered] at hret; cases hret

end Sys2Proof.Machine
end

section
/-! Frames from the encoder to the decoder (30_encoding.md §1, 40_frame_encoder.md, 41_frame_decoder.md). -/

namespace Sys2Proof.Machine

/-! ## The escaped body -/

/-- The two bytes that are escaped (R93). -/
theorem escapeByte_of_special {b : Byte} (h : b = flagByte ∨ b = escByte) : escapeByte b = [escByte, b ^^^ escXor] := if_pos h

theorem escapeByte_of_plain {b : Byte} (hflag : b ≠ flagByte) (hesc : b ≠ escByte) : escapeByte b = [b] :=
  if_neg (not_or.mpr ⟨hflag, hesc⟩)

/-- Only a flag's and an escape byte's own pairs are sent (R95). -/
theorem xor_escXor_of_special {b : Byte} (h : b = flagByte ∨ b = escByte) : b ^^^ escXor = 0x5E ∨ b ^^^ escXor = 0x5D := by
  rcases h with rfl | rfl
  · exact .inl rfl
  · exact .inr rfl

theorem flag_not_mem_escapeByte (b : Byte) : flagByte ∉ escapeByte b := by
  by_cases special : b = flagByte ∨ b = escByte
  · rw [escapeByte_of_special special]
    rcases xor_escXor_of_special special with h | h <;> simp [h, flagByte, escByte]
  · obtain ⟨hflag, hesc⟩ := not_or.mp special
    simpa [escapeByte_of_plain hflag hesc] using Ne.symm hflag

theorem flag_not_mem_escapeBytes (data : Bytes) : flagByte ∉ escapeBytes data := by
  rw [escapeBytes_eq_flatMap, List.mem_flatMap]
  rintro ⟨b, -, hb⟩
  exact flag_not_mem_escapeByte b hb

/-- An escape byte inside an escaped body opens a canonical pair (R95). -/
theorem escapeBytes_canonical (data pre post : Bytes) (h : escapeBytes data = pre ++ escByte :: post) :
    ∃ b rest, post = b :: rest ∧ (b = 0x5E ∨ b = 0x5D) := by
  induction data generalizing pre with
  | nil => simp [escapeBytes] at h
  | cons a data ih =>
    rw [escapeBytes] at h
    by_cases special : a = flagByte ∨ a = escByte
    · rw [escapeByte_of_special special] at h
      have canonical := xor_escXor_of_special special
      match pre with
      | [] =>
        simp only [List.cons_append, List.nil_append, List.cons.injEq, true_and] at h
        exact ⟨_, _, h.symm, canonical⟩
      | [p] =>
        simp only [List.cons_append, List.nil_append, List.cons.injEq] at h
        obtain ⟨-, pair, -⟩ := h
        rw [pair] at canonical
        exact absurd canonical (by decide)
      | p :: q :: pre =>
        simp only [List.cons_append, List.nil_append, List.cons.injEq] at h
        obtain ⟨-, -, rest⟩ := h
        exact ih pre rest
    · obtain ⟨hflag, hesc⟩ := not_or.mp special
      rw [escapeByte_of_plain hflag hesc] at h
      match pre with
      | [] =>
        simp only [List.cons_append, List.nil_append, List.cons.injEq] at h
        exact absurd h.1 hesc
      | p :: pre =>
        simp only [List.cons_append, List.nil_append, List.cons.injEq] at h
        exact ih pre h.2

/-- Each escaped byte is sent as one byte more (R135). -/
theorem length_escapeBytes (data : Bytes) :
    (escapeBytes data).length = data.length + data.countP (fun b => b == flagByte || b == escByte) := by
  induction data with
  | nil => rfl
  | cons b data ih =>
    rw [escapeBytes, List.length_append, ih, List.length_cons, List.countP_cons]
    by_cases special : b = flagByte ∨ b = escByte
    · have counted : (b == flagByte || b == escByte) = true := by simpa using special
      rw [escapeByte_of_special special, if_pos counted]
      simp only [List.length_cons, List.length_nil]
      omega
    · have counted : ¬(b == flagByte || b == escByte) = true := by simpa using special
      obtain ⟨hflag, hesc⟩ := not_or.mp special
      rw [escapeByte_of_plain hflag hesc, if_neg counted]
      simp only [List.length_cons, List.length_nil]
      omega

theorem length_frameTrailer (p : Params) (payload : Bytes) (useCrc : Bool) : (frameTrailer p payload useCrc).length = 2 := by
  cases useCrc <;> rfl

/-- Settles O25: between the flags stands the escaped payload and trailer. -/
theorem framesHaveFlagsOnlyAtTheirEnds : Obligations.FramesHaveFlagsOnlyAtTheirEnds := by
  intro s t payload f useCrc hexec hret
  rw [exec_encFrame] at hexec
  cases hexec
  cases hret
  refine ⟨escapeBytes (payload ++ frameTrailer s.cfg payload useCrc), rfl, flag_not_mem_escapeBytes _, escapeBytes_canonical _, ?_⟩
  simp only [frameBytes, List.length_append, length_escapeBytes, length_frameTrailer, List.length_singleton, flagByte, escByte]
  omega

/-! ## Decoding it -/

/-- The decoder fed with a byte sequence. -/
def pushAll (bytes : Bytes) (s : State) : State := bytes.foldl (fun u b => push b u) s

theorem pushAll_append (d e : Bytes) (s : State) : pushAll (d ++ e) s = pushAll e (pushAll d s) := List.foldl_append

theorem runInstrs_decPush (bytes : Bytes) (s : State) : runInstrs (bytes.map Instr.decPush) s = .next (pushAll bytes s) := by
  induction bytes generalizing s with
  | nil => rfl
  | cons b bytes ih => exact ih (push b s)

/-- A decoder inside a frame, with nothing to report. -/
def inFrameState (acc : Bytes) (s : State) : State := { s with dec := { st := .inFrame, acc := acc }, ret := .nothing }

/-- What the encoder sends for one byte appends that byte, where there is room (R134). -/
theorem pushAll_escapeByte {acc : Bytes} {s : State} (hroom : acc.length < s.cfg.maxBody) (b : Byte) :
    pushAll (escapeByte b) (inFrameState acc s) = inFrameState (acc ++ [b]) s := by
  have inFrame : (inFrameState acc s).dec.st = .inFrame := rfl
  by_cases special : b = flagByte ∨ b = escByte
  · have pair_ne_flag : b ^^^ escXor ≠ flagByte := by
      rcases special with rfl | rfl <;> decide
    have back : b ^^^ escXor ^^^ escXor = b := by rw [BitVec.xor_assoc, BitVec.xor_self, BitVec.xor_zero]
    rw [escapeByte_of_special special]
    refine (pushPair_of_inFrame inFrame hroom pair_ne_flag).trans ?_
    rw [back]
    rfl
  · obtain ⟨hflag, hesc⟩ := not_or.mp special
    have room : ¬acc.length = s.cfg.maxBody := by omega
    rw [escapeByte_of_plain hflag hesc]
    exact (push_data_of_inFrame inFrame hflag hesc).trans (if_neg room)

/-- So do all bytes of a body the accumulator holds. -/
theorem pushAll_escapeBytes {s : State} (data acc : Bytes) (hroom : acc.length + data.length ≤ s.cfg.maxBody) :
    pushAll (escapeBytes data) (inFrameState acc s) = inFrameState (acc ++ data) s := by
  induction data generalizing acc with
  | nil => rw [List.append_nil]; rfl
  | cons b data ih =>
    rw [List.length_cons] at hroom
    rw [escapeBytes, pushAll_append, pushAll_escapeByte (by omega), ih _ (by rw [List.length_append, List.length_singleton]; omega),
      List.append_assoc]
    rfl

/-- The trailer of an encoded payload passes the check of its own setting (R131, R163). -/
theorem decComplete_frameTrailer (payload : Bytes) (s : State) :
    decComplete (payload ++ frameTrailer s.cfg payload s.cfg.useCrc) s =
      { s with ret := .frame payload, decOut := s.decOut ++ [.frame payload] } := by
  cases hcrc : s.cfg.useCrc with
  | false => exact (decComplete_append _ _ _ s).trans (if_neg (by simp [hcrc]))
  | true => exact (decComplete_append _ _ _ s).trans (if_neg (by simp))

/-- A whole frame fed to an idle decoder is delivered as its payload (R134). -/
theorem pushAll_frameBytes {s : State} {payload : Bytes} (hidle : s.dec.st = .idle) (hroom : payload.length + 2 ≤ s.cfg.maxBody) :
    pushAll (frameBytes s.cfg payload s.cfg.useCrc) s =
      { s with dec := Dec.reset, ret := .frame payload, decOut := s.decOut ++ [.frame payload] } := by
  have fits : ([] : Bytes).length + (payload ++ frameTrailer s.cfg payload s.cfg.useCrc).length ≤ s.cfg.maxBody := by
    rw [List.length_append, length_frameTrailer, List.length_nil, Nat.zero_add]
    exact hroom
  have opened : pushAll [flagByte] s = inFrameState [] s := push_flag_of_idle hidle
  have held : payload ++ frameTrailer s.cfg payload s.cfg.useCrc ≠ [] := by
    intro empty
    have := congrArg List.length empty
    rw [List.length_append, length_frameTrailer] at this
    cases this
  rw [frameBytes, pushAll_append, pushAll_append, opened, pushAll_escapeBytes _ _ fits, List.nil_append]
  refine (push_flag_of_nonempty (s := inFrameState _ s) rfl held).trans ?_
  exact decComplete_frameTrailer payload ((inFrameState _ s).setDec Dec.reset)

/-- Settles O15: DEC.RESET makes the decoder idle, and the frame's bytes are then decoder steps. -/
theorem decodeOfEncodeIsThePayload : Obligations.DecodeOfEncodeIsThePayload := by
  intro s payload hroom
  refine ⟨_, _, exec_encFrame payload s.cfg.useCrc s, rfl, ?_⟩
  refine (runInstrs_decPush _ _).trans (congrArg _ ?_)
  exact pushAll_frameBytes (s := State.setDec _ Dec.reset) rfl hroom

end Sys2Proof.Machine
end

section
/-! The message layer: fragments, MSG.RECV of every fragment, the idle timer, and a message from end to end (43_message_layer.md). -/

namespace Sys2Proof.Machine

/-! ## Fragments -/

theorem length_fragment (payload : Bytes) (i : Nat) : (fragment payload i).length = min 256 (payload.length - 256 * i) := by
  simp [fragment, fragMax]

/-- The fragments before fragment `i` and fragment `i` itself (R200). -/
theorem take_append_fragment (payload : Bytes) (i : Nat) :
    payload.take (256 * i) ++ fragment payload i = payload.take (256 * (i + 1)) := by
  rw [Nat.mul_succ, List.take_add, fragment, fragMax]

theorem flatten_fragments (payload : Bytes) (n : Nat) : ((List.range n).map (fragment payload)).flatten = payload.take (256 * n) := by
  induction n with
  | zero => simp
  | succ n ih => simp [List.range_succ, ih, take_append_fragment]

/-- The fragments hold the payload, and the last of them is needed for it (R201). -/
theorem le_fragCount_mul (n : Nat) : n ≤ 256 * fragCount n := by
  unfold fragCount fragMax
  omega

theorem fragCount_pos (n : Nat) : 0 < fragCount n := by
  unfold fragCount
  omega

/-- Settles O27: a fragment's length is what the payload has left, at most 256. -/
theorem fragmentsRebuildThePayload : Obligations.FragmentsRebuildThePayload := by
  intro payload
  refine ⟨?whole, ?full, ?last⟩
  case whole => rw [flatten_fragments, List.take_of_length_le (le_fragCount_mul _)]
  case full =>
    intro i hi
    rw [length_fragment]
    unfold fragCount fragMax at hi
    omega
  case last =>
    intro hne
    have pos : 0 < payload.length := List.length_pos_iff.mpr hne
    rw [length_fragment]
    unfold fragCount fragMax
    omega

/-! ## Headers -/

/-- The row MSGHDR is MSG.RECV of its header's bytes and the bytes after them (log 16). -/
theorem exec_msgHeader (command : Half) (id : Byte) (count index length : Half) (data : Bytes) (s : State) :
    exec (.msgHeader command id count index length data) s =
      exec (.msgRecv (headerBytes command id count index length ++ data)) s := rfl

/-- Fewer than nine bytes are no header (R210). -/
theorem parseHeader_of_short {p : Bytes} (h : p.length < 9) : parseHeader p = none := by
  unfold parseHeader
  split
  · simp only [List.length_cons] at h; omega
  · rfl

theorem exec_msgRecv_of_short {p : Bytes} (h : p.length < 9) (s : State) :
    exec (.msgRecv p) s = .next (droppedState .malformedHeader s) := by
  have received : exec (.msgRecv p) s = receive p s := rfl
  rw [received, receive, parseHeader_of_short h, raiseError_dropped (.inl rfl)]

/-- A header that R210 does not pass is dropped. -/
theorem exec_msgRecv_of_invalid {command count index length : Half} {id : Byte} {data : Bytes}
    (h : headerValid { command, id, count, index, length, data } = false) (s : State) :
    exec (.msgRecv (headerBytes command id count index length ++ data)) s = .next (droppedState .malformedHeader s) := by
  have received : exec (.msgRecv (headerBytes command id count index length ++ data)) s =
      receive (headerBytes command id count index length ++ data) s := rfl
  simp only [received, receive, parseHeader_headerBytes, h]
  rw [if_neg Bool.false_ne_true, raiseError_dropped (.inl rfl)]

theorem headerValid_eq_false_iff (h : Header) :
    headerValid h = false ↔ 256 < h.length.toNat ∨ h.length.toNat ≠ h.data.length ∨ h.count.toNat ≤ h.index.toNat := by
  rw [← Bool.not_eq_true, headerValid, fragMax]
  simp only [Bool.and_eq_true, decide_eq_true_eq]
  omega

/-- Settles O28: too short to be parsed, or parsed and not valid. -/
theorem malformedHeadersAreDropped : Obligations.MalformedHeadersAreDropped := by
  intro s p data command count index length id
  refine ⟨fun short => exec_msgRecv_of_short short s, fun malformed => ?_⟩
  have invalid : headerValid { command, id, count, index, length, data } = false := (headerValid_eq_false_iff _).mpr malformed
  exact ⟨exec_msgRecv_of_invalid invalid s, exec_msgRecv_of_invalid invalid s⟩

/-! ## Accepted fragments -/

/-- A message of one fragment is dispatched before the context is looked at (R212). -/
theorem acceptFragment_of_single {h : Header} (hcount : h.count = 1) (s : State) :
    acceptFragment h s = exec (readCommandCode h.command h.id h.data) s := by
  rw [acceptFragment, if_pos hcount, dispatch_eq_exec]

/-- Settles O29: a valid fragment with count 1. -/
theorem oneFragmentMessageIsDispatched : Obligations.OneFragmentMessageIsDispatched := by
  intro s command length id data hlength hmax
  rw [exec_msgRecv_of_valid hlength hmax (by decide), acceptFragment_of_single rfl]

theorem ne_one_of_two_le {c : Half} (h : 2 ≤ c.toNat) : c ≠ 1 := by
  rintro rfl
  exact absurd h (by decide)

/-- Releasing a context that is not active changes nothing. -/
theorem setCtx_release_of_inactive {s : State} (h : s.ctx.active = false) : s.setCtx { s.ctx with active := false } = s := by
  rw [← h]
  rfl

/-- With no context, the fragment of a longer message is tested for its index, then for room, and allocates (R213, R215, R225). -/
theorem acceptFragment_of_inactive {h : Header} {s : State} (hinactive : s.ctx.active = false) (hcount : 2 ≤ h.count.toNat) :
    acceptFragment h s =
      if h.index ≠ 0 then .next (droppedState .fragmentOutOfOrder s)
      else if s.cfg.maxMessage < h.count.toNat * 256 then .next (droppedState .malformedHeader s)
      else matchFragment h (s.setCtx (allocated h)) := by
  rw [acceptFragment, if_neg (ne_one_of_two_le hcount), if_pos hinactive, raiseError_fragmentOutOfOrder,
    setCtx_release_of_inactive hinactive, raiseError_dropped (.inl rfl)]
  rfl

/-- The first fragment of a longer message is the allocated context's next one, and not its last (R213, R217). -/
theorem matchFragment_allocated {h : Header} (hindex : h.index = 0) (hcount : 2 ≤ h.count.toNat) (s : State) :
    matchFragment h (s.setCtx (allocated h)) = .next ((s.setCtx (extended (allocated h) h.data)).setRet .nothing) := by
  have first : (allocated h).nextIdx.toNat = 0 := rfl
  have count_eq : (allocated h).count = h.count := rfl
  have incomplete : contextComplete (extended (allocated h) h.data) = false := by
    rw [← Bool.not_eq_true, contextComplete_extended_iff (by rw [first, count_eq]; omega), first, count_eq]
    omega
  rw [matchFragment_of_expected rfl hindex, storeFragment_of_incomplete incomplete]
  rfl

/-- Settles O30: the two tests of a first fragment, and what it allocates. -/
theorem firstFragmentAllocatesTheContext : Obligations.FirstFragmentAllocatesTheContext := by
  intro s command count index length id data hinactive hlength hmax hvalid hlong
  refine ⟨(exec_msgHeader ..).symm, ?_⟩
  rw [exec_msgHeader, exec_msgRecv_of_valid hlength hmax hvalid, acceptFragment_of_inactive hinactive hlong]
  split
  · rfl
  · next hindex =>
    split
    · rfl
    · rw [matchFragment_allocated (not_not.mp hindex) hlong]
      rfl

/-- Another count than the context's releases it, whatever the index (R219). -/
theorem matchFragment_of_count_ne {h : Header} {s : State} (hcount : h.count ≠ s.ctx.count) :
    matchFragment h s = .next (droppedState .fragmentOutOfOrder (s.setCtx { s.ctx with active := false })) := by
  rw [matchFragment, if_pos (.inl hcount), raiseError_fragmentOutOfOrder]

/-- Settles O32: past the test of the `ID`, the count is compared before anything is stored. -/
theorem anotherCountIsOutOfOrder : Obligations.AnotherCountIsOutOfOrder := by
  intro s command count index length id data hactive hlength hmax hvalid hlong hid hcount
  rw [exec_msgRecv_of_valid hlength hmax hvalid, acceptFragment_of_active hactive hlong, if_neg (not_not.mpr hid),
    matchFragment_of_count_ne hcount]
  rfl

/-! ## The idle timer -/

theorem ctxTick_of_inactive (p : Params) {c : Ctx} (h : c.active = false) : ctxTick p c = c := if_neg (by simp [h])

theorem ctxTick_of_active (p : Params) {c : Ctx} (h : c.active = true) :
    ctxTick p c = { c with idle := c.idle + 1, active := decide (c.idle + 1 < p.reasmTimeout) } := if_pos h

/-- MSG.TICK is never refused and touches only the context (R226). -/
theorem exec_msgTick (s : State) : exec .msgTick s = .next (s.setCtx (ctxTick s.cfg s.ctx)) := rfl

theorem runInstrs_msgTick (k : Nat) (s : State) :
    runInstrs (List.replicate k .msgTick) s = .next (s.setCtx ((ctxTick s.cfg)^[k] s.ctx)) := by
  induction k generalizing s with
  | zero => rfl
  | succ k ih => exact ih (s.setCtx (ctxTick s.cfg s.ctx))

/-- Below the timeout the ticks only count. -/
theorem ctxTick_iterate_of_lt {p : Params} {c : Ctx} (hactive : c.active = true) (k : Nat) (h : c.idle + k < p.reasmTimeout) :
    (ctxTick p)^[k] c = { c with idle := c.idle + k } := by
  induction k with
  | zero => rfl
  | succ k ih =>
    rw [Function.iterate_succ_apply', ih (by omega)]
    refine (ctxTick_of_active (c := { c with idle := c.idle + k }) p hactive).trans ?_
    simp [h, hactive, Nat.add_assoc]

/-- A context still active after some ticks has counted them all, below the timeout. -/
theorem idle_of_ctxTick_iterate_active {p : Params} {c : Ctx} (k : Nat) (h : ((ctxTick p)^[k + 1] c).active = true) :
    k + 1 ≤ ((ctxTick p)^[k + 1] c).idle ∧ ((ctxTick p)^[k + 1] c).idle < p.reasmTimeout := by
  induction k with
  | zero =>
    rw [Function.iterate_one] at h ⊢
    cases hc : c.active with
    | false => rw [ctxTick_of_inactive p hc, hc] at h; cases h
    | true =>
      rw [ctxTick_of_active p hc] at h ⊢
      exact ⟨Nat.le_add_left 1 c.idle, of_decide_eq_true h⟩
  | succ k ih =>
    rw [Function.iterate_succ_apply'] at h ⊢
    cases hc : ((ctxTick p)^[k + 1] c).active with
    | false => rw [ctxTick_of_inactive p hc, hc] at h; cases h
    | true =>
      obtain ⟨counted, -⟩ := ih hc
      rw [ctxTick_of_active p hc] at h ⊢
      exact ⟨Nat.succ_le_succ counted, of_decide_eq_true h⟩

/-- So as many ticks as the timeout release it (R226). -/
theorem ctxTick_iterate_timeout {p : Params} (h : 0 < p.reasmTimeout) (c : Ctx) :
    ((ctxTick p)^[p.reasmTimeout] c).active = false := by
  obtain ⟨k, hk⟩ := Nat.exists_eq_succ_of_ne_zero (Nat.ne_of_gt h)
  by_contra active
  rw [Bool.not_eq_false, hk] at active
  have := idle_of_ctxTick_iterate_active k active
  omega

/-- Settles O35: `k` ticks are the `k`-th iterate of one on the context. -/
theorem idleTicksReleaseTheContext : Obligations.IdleTicksReleaseTheContext := by
  intro s k
  refine ⟨?inactive, ?active, ?below, ?timeout⟩
  case inactive =>
    intro hinactive
    rw [exec_msgTick, ctxTick_of_inactive s.cfg hinactive]
    rfl
  case active =>
    intro hactive
    rw [exec_msgTick, ctxTick_of_active s.cfg hactive]
    rfl
  case below =>
    intro hactive hbelow
    rw [runInstrs_msgTick, ctxTick_iterate_of_lt hactive k hbelow]
    rfl
  case timeout =>
    intro hpos
    exact ⟨_, ctxTick_iterate_timeout hpos s.ctx, runInstrs_msgTick s.cfg.reasmTimeout s⟩

/-! ## A message from end to end -/

theorem runInstrs_append {before after : List Instr} {s t : State} (h : runInstrs before s = .next t) :
    runInstrs (before ++ after) s = runInstrs after t := by
  induction before generalizing s with
  | nil => cases h; rfl
  | cons i before ih =>
    rw [runInstrs] at h
    rw [List.cons_append, runInstrs]
    cases hi : exec i s with
    | next u => rw [hi] at h; exact ih h
    | fault => rw [hi] at h; cases h
    | refused => rw [hi] at h; cases h

theorem runInstrs_singleton (i : Instr) (s : State) : runInstrs [i] s = exec i s := by
  rw [runInstrs]
  cases exec i s <;> rfl

/-- The context in which the fragments before fragment `i` of a message are reassembled. -/
def partialCtx (command : Half) (id : Byte) (payload : Bytes) (i : Nat) : Ctx where
  active := true
  id := id
  count := BitVec.ofNat 16 (fragCount payload.length)
  nextIdx := BitVec.ofNat 16 i
  cmd := command
  buf := payload.take (256 * i)
  idle := 0

/-- The block with that context, a fragment just stored. -/
def partialState (command : Half) (id : Byte) (payload : Bytes) (i : Nat) (s : State) : State :=
  { s with ctx := partialCtx command id payload i, ret := .nothing }

theorem toNat_ofNat_of_le {n : Nat} (h : n ≤ 65535) : (BitVec.ofNat 16 n).toNat = n := by
  rw [BitVec.toNat_ofNat]
  omega

theorem toNat_length_fragment (payload : Bytes) (i : Nat) :
    (BitVec.ofNat 16 (fragment payload i).length).toNat = (fragment payload i).length := by
  refine toNat_ofNat_of_le ?_
  rw [length_fragment]
  omega

theorem length_fragment_le (payload : Bytes) (i : Nat) : (fragment payload i).length ≤ 256 := by
  rw [length_fragment]
  omega

section
variable {s : State} {command : Half} {id : Byte} {payload : Bytes}

/-- The first frame payload of a longer message allocates its context. -/
theorem receive_first_fragment (hinactive : s.ctx.active = false) (hlong : 2 ≤ fragCount payload.length)
    (hcount : fragCount payload.length ≤ 65535) (hroom : 256 * fragCount payload.length ≤ s.cfg.maxMessage) :
    exec (.msgRecv (fragmentPayload command id payload (fragCount payload.length) 0)) s =
      .next (partialState command id payload 1 s) := by
  have count_eq := toNat_ofNat_of_le hcount
  have fits : ¬s.cfg.maxMessage < (BitVec.ofNat 16 (fragCount payload.length)).toNat * 256 := by rw [count_eq]; omega
  have first := firstFragmentAllocatesTheContext s command (BitVec.ofNat 16 (fragCount payload.length)) 0
    (BitVec.ofNat 16 (fragment payload 0).length) id (fragment payload 0) hinactive (toNat_length_fragment payload 0)
    (length_fragment_le payload 0) (by rw [count_eq]; exact Nat.lt_of_lt_of_le Nat.zero_lt_two hlong) (by rw [count_eq]; exact hlong)
  refine (first.1.trans first.2).trans ?_
  rw [if_neg (not_not.mpr rfl), if_neg fits]
  rfl

/-- Every further frame payload but the last extends it. -/
theorem receive_middle_fragment {i : Nat} (hi : i + 1 < fragCount payload.length) (hcount : fragCount payload.length ≤ 65535) :
    exec (.msgRecv (fragmentPayload command id payload (fragCount payload.length) i)) (partialState command id payload i s) =
      .next (partialState command id payload (i + 1) s) := by
  have count_eq : (partialState command id payload i s).ctx.count.toNat = fragCount payload.length := toNat_ofNat_of_le hcount
  have index_eq : (partialState command id payload i s).ctx.nextIdx.toNat = i := toNat_ofNat_of_le (by omega)
  have stored := (expectedFragmentIsStoredOrDelivered (partialState command id payload i s) command
    (BitVec.ofNat 16 (fragment payload i).length) (fragment payload i) rfl (toNat_length_fragment payload i)
    (length_fragment_le payload i) (by omega) (by omega)).1 (by omega)
  refine stored.trans ?_
  have next_index : BitVec.ofNat 16 (i + 1) = BitVec.ofNat 16 i + 1 := BitVec.ofNat_add i 1
  simp only [partialState, partialCtx, take_append_fragment, next_index]

/-- The last one delivers the payload and releases the context. -/
theorem receive_last_fragment {i : Nat} (hi : i + 1 = fragCount payload.length) (hlong : 2 ≤ fragCount payload.length)
    (hcount : fragCount payload.length ≤ 65535) :
    ∃ c : Ctx, c.active = false ∧
      exec (.msgRecv (fragmentPayload command id payload (fragCount payload.length) i)) (partialState command id payload i s) =
        exec (readCommandCode command id payload) { s with ctx := c, ret := .nothing } := by
  have count_eq : (partialState command id payload i s).ctx.count.toNat = fragCount payload.length := toNat_ofNat_of_le hcount
  have index_eq : (partialState command id payload i s).ctx.nextIdx.toNat = i := toNat_ofNat_of_le (by omega)
  have delivered := (expectedFragmentIsStoredOrDelivered (partialState command id payload i s) command
    (BitVec.ofNat 16 (fragment payload i).length) (fragment payload i) rfl (toNat_length_fragment payload i)
    (length_fragment_le payload i) (by omega) (by omega)).2 (by omega)
  have whole : (partialState command id payload i s).ctx.buf ++ fragment payload i = payload := by
    refine (take_append_fragment payload i).trans (List.take_of_length_le ?_)
    rw [hi]
    exact le_fragCount_mul _
  rw [whole] at delivered
  exact ⟨_, rfl, delivered⟩

/-- The first `i + 1` frame payloads of a longer message, in order. -/
theorem receive_fragments (hinactive : s.ctx.active = false) (hcount : fragCount payload.length ≤ 65535)
    (hroom : 256 * fragCount payload.length ≤ s.cfg.maxMessage) (i : Nat) (hi : i + 1 < fragCount payload.length) :
    runInstrs (((List.range (i + 1)).map (fragmentPayload command id payload (fragCount payload.length))).map Instr.msgRecv) s =
      .next (partialState command id payload (i + 1) s) := by
  induction i with
  | zero => exact (runInstrs_singleton _ s).trans (receive_first_fragment hinactive hi hcount hroom)
  | succ i ih =>
    rw [List.range_succ, List.map_append, List.map_append, runInstrs_append (ih (by omega))]
    exact (runInstrs_singleton _ _).trans (receive_middle_fragment hi hcount)

end

/-- A dispatch does not look at the last result, and returns one of its own. -/
theorem exec_readCommandCode_setRet (command : Half) (id : Byte) (data : Bytes) (r : Result) (s : State) :
    exec (readCommandCode command id data) (s.setRet r) = exec (readCommandCode command id data) s := by
  rw [← dispatch_eq_exec, ← dispatch_eq_exec]
  rfl

/-- Settles O36: one fragment is dispatched at once; of more, the first allocates, the middle ones extend, and the last delivers. -/
theorem receivingWhatWasSentDispatchesIt : Obligations.ReceivingWhatWasSentDispatchesIt := by
  intro s command id payload hinactive hmax hroom
  have hcount : fragCount payload.length ≤ 65535 := (fragCount_le_iff _).mpr hmax
  rw [messagePayloads]
  obtain hsingle | hlong : fragCount payload.length = 1 ∨ 2 ≤ fragCount payload.length := by
    have := fragCount_pos payload.length
    omega
  · have whole : fragment payload 0 = payload := by
      have all : payload.length ≤ 256 := by have := le_fragCount_mul payload.length; omega
      exact List.take_of_length_le all
    have single := oneFragmentMessageIsDispatched s command _ id (fragment payload 0) (toNat_length_fragment payload 0)
      (length_fragment_le payload 0)
    refine ⟨s.ctx, hinactive, ?_⟩
    rw [hsingle]
    refine (runInstrs_singleton _ s).trans (single.trans ?_)
    rw [whole]
  · obtain ⟨i, hi⟩ : ∃ i, fragCount payload.length = i + 1 + 1 := Nat.exists_eq_add_of_le' hlong
    obtain ⟨c, released, delivered⟩ := receive_last_fragment (s := s) (command := command) (id := id) hi.symm hlong hcount
    refine ⟨c, released, ?_⟩
    have range_eq : List.range (fragCount payload.length) = List.range (i + 1) ++ [i + 1] := by rw [hi, List.range_succ]
    rw [range_eq, List.map_append, List.map_append, runInstrs_append (receive_fragments hinactive hcount hroom i (by omega))]
    refine (runInstrs_singleton _ _).trans (delivered.trans ?_)
    exact exec_readCommandCode_setRet command id payload .nothing { s with ctx := c }

end Sys2Proof.Machine
end

section
/-! The flash store: the operations behind R273's requirement, and the phases as one equation each (44_flash.md). -/

namespace Sys2Proof.Machine

/-! ## Operations -/

/-- On a unit that is not idle every FL operation is refused (R273). -/
theorem whenFlIdle_of_busy {s : State} (h : s.fl.phase ≠ .ready ∨ s.fl.op ≠ .none) (k : Host.Outcome State Fault Refusal) :
    whenFlIdle s k = .refused .flashNotReady :=
  if_neg (by rw [flIdle_iff]; exact not_and_or.mpr h)

/-- FL.ERASE enters the sequence without a look at the region (R250, R257). -/
theorem exec_flErase_of_ready {s : State} (hphase : s.fl.phase = .ready) (hop : s.fl.op = .none) :
    exec .flErase s = .next (beginErase s) := whenFlIdle_of_ready hphase hop _

/-- FL.BOOT looks at the scan (R268). -/
theorem exec_flBoot_of_ready {s : State} (hphase : s.fl.phase = .ready) (hop : s.fl.op = .none) :
    exec .flBoot s = .next (if regionDirty s then beginErase s else s.setRet .ok) := whenFlIdle_of_ready hphase hop _

/-- Settles O39: on an idle unit the two operations by the scan; on any other all five are refused. -/
theorem eraseAndBootEnterTheSequence : Obligations.EraseAndBootEnterTheSequence := by
  intro s offset length data
  constructor
  · intro hphase hop
    rw [exec_flErase_of_ready hphase hop, exec_flBoot_of_ready hphase hop]
    refine ⟨rfl, fun dirty => ?_, fun clean => ?_⟩
    · rw [regionDirty_of_exists dirty]
      rfl
    · rw [regionDirty_of_forall clean]
      rfl
  · intro busy
    exact ⟨whenFlIdle_of_busy busy _, whenFlIdle_of_busy busy _, whenFlIdle_of_busy busy _, whenFlIdle_of_busy busy _,
      whenFlIdle_of_busy busy _⟩

theorem inRegion_iff (p : Params) (offset n : Nat) : inRegion p offset n = true ↔ offset + n ≤ p.flashSize := by
  simp [inRegion]

theorem onUnits_iff (p : Params) (offset n : Nat) : onUnits p offset n = true ↔ offset % p.progUnit = 0 ∧ n % p.progUnit = 0 := by
  simp [onUnits]

/-- FL.WRITE of an idle unit: region, units, scan, and no data, in this order (R258, R259). -/
theorem exec_flWrite_of_ready {s : State} (hphase : s.fl.phase = .ready) (hop : s.fl.op = .none) (offset : Nat) (data : Bytes) :
    exec (.flWrite offset data) s =
      if offset + data.length ≤ s.cfg.flashSize then
        if offset % s.cfg.progUnit = 0 ∧ data.length % s.cfg.progUnit = 0 then
          .next (if regionDirty s then droppedState .notClean s else if data = [] then s.setRet .ok else beginWrite offset data s)
        else .refused .notUnitAligned
      else .refused .outsideRegion := by
  refine (whenFlIdle_of_ready hphase hop _).trans ?_
  simp only [inRegion_iff, onUnits_iff, raiseError_dropped (e := .notClean) (by simp)]
  split
  · split
    · split
      · rfl
      · split <;> rfl
    · rfl
  · rfl

/-- Settles O40: the tests in their order. -/
theorem writeChecksThenEntersTheSequence : Obligations.WriteChecksThenEntersTheSequence := by
  intro s offset data hphase hop
  rw [exec_flWrite_of_ready hphase hop]
  refine ⟨fun beyond => if_neg (Nat.not_le.mpr beyond), fun inside off => ?_, fun inside hoffset hlength => ?_⟩
  · rw [if_pos inside, if_neg (not_and_or.mpr off)]
  · rw [if_pos inside, if_pos ⟨hoffset, hlength⟩]
    constructor
    · intro dirty
      rw [regionDirty_of_exists dirty, if_pos rfl]
    · intro clean
      rw [regionDirty_of_forall clean, if_neg Bool.false_ne_true]
      rfl

/-! ## Reading the region -/

/-- A read inside the region reads at the offset (R66). -/
theorem memRead_of_le {p : Params} {offset n : Nat} (h : offset + n ≤ p.flashSize) (m : Memory) :
    memRead p m (p.flashBase + offset) n = some (memRange m offset n) := by
  rw [memRead, if_pos ⟨by omega, by omega⟩, Nat.add_sub_cancel_left]

theorem memRead_of_lt {p : Params} {offset n : Nat} (h : p.flashSize < offset + n) (m : Memory) :
    memRead p m (p.flashBase + offset) n = none := if_neg (by omega)

@[simp] theorem length_memRange (m : Memory) (a n : Nat) : (memRange m a n).length = n := by simp [memRange]

theorem getElem?_memRange {m : Memory} {a n k : Nat} (h : k < n) : (memRange m a n)[k]? = some (memGet m (a + k)) := by
  simp [memRange, h]

/-- Settles O41: what is read are the bytes of the range. -/
theorem readReturnsTheRegionsBytes : Obligations.ReadReturnsTheRegionsBytes := by
  intro s offset length hphase hop
  constructor
  · intro inside
    refine ⟨memRange s.fl.mem offset length, ?_, length_memRange .., fun k hk => getElem?_memRange hk⟩
    refine (whenFlIdle_of_ready hphase hop _).trans ?_
    simp only [memRead_of_le inside]
    rfl
  · intro beyond
    refine (whenFlIdle_of_ready hphase hop _).trans ?_
    simp only [memRead_of_lt beyond]

/-! ## Phases -/

/-- A phase as one equation, from what its guard means. -/
theorem whenEnabled_eq {enabled : Bool} {p : Prop} [Decidable p] (h : enabled = true ↔ p) (t : State) :
    whenEnabled enabled t = if p then .next t else .refused .phaseNotEnabled := by
  unfold whenEnabled
  simp only [h]

theorem exec_flcUnlock_of_ready {s : State} (hphase : s.fl.phase = .ready) (hlocked : s.fl.locked = true) (hop : s.fl.op ≠ .none)
    (hkey : s.fl.keystep = 0) :
    exec .flcUnlock s =
      .next (s.setFl { s.fl with locked := false, keystep := 0, phase := if s.fl.op = .write then .wUnlocked else .eUnlocked }) := by
  refine (if_pos ⟨hphase, hlocked, hop⟩).trans ?_
  simp only [unlockSequence_eq s.cfg hkey]
  rfl

/-- A key port that is not at rest takes no first key (R251, U11). -/
theorem unlockSequence_of_halfway {p : Params} (hkeys : p.flashKey1 ≠ p.flashKey2) {f : Fl} (h : f.keystep ≠ 0) :
    unlockSequence p f = none := by
  simp [unlockSequence, writeKey, h, hkeys]

theorem exec_flcUnlock_of_halfway {s : State} (hphase : s.fl.phase = .ready) (hlocked : s.fl.locked = true)
    (hop : s.fl.op ≠ .none) (hkey : s.fl.keystep ≠ 0) (hkeys : s.cfg.flashKey1 ≠ s.cfg.flashKey2) :
    exec .flcUnlock s = .refused .wrongKey := by
  refine (if_pos ⟨hphase, hlocked, hop⟩).trans ?_
  simp only [unlockSequence_of_halfway hkeys hkey]

theorem exec_flcUnlock_of_not_enabled {s : State} (h : ¬(s.fl.phase = .ready ∧ s.fl.locked = true ∧ s.fl.op ≠ .none)) :
    exec .flcUnlock s = .refused .phaseNotEnabled := if_neg h

/-- FLC.SELECT_ERASE (R252). -/
theorem exec_flcSelectErase (s : State) :
    exec .flcSelectErase s =
      if s.fl.phase = .eUnlocked then
        .next (s.setFl { s.fl with mode := .sectorErase, sector := s.cfg.flashSector, phase := .eSelected })
      else .refused .phaseNotEnabled := whenEnabled_eq decide_eq_true_iff _

/-- FLC.START_ERASE (R253). -/
theorem exec_flcStartErase (s : State) :
    exec .flcStartErase s =
      if s.fl.phase = .eSelected ∧ s.fl.locked = false then
        .next (s.setFl { s.fl with busy := true, complete := false, err := false, phase := .eBusy })
      else .refused .phaseNotEnabled := whenEnabled_eq decide_eq_true_iff _

/-- FLC.SELECT_PROGRAM (R261). -/
theorem exec_flcSelectProgram (s : State) :
    exec .flcSelectProgram s =
      if s.fl.phase = .wUnlocked then .next (s.setFl { s.fl with mode := .program, err := false, phase := .wMode })
      else .refused .phaseNotEnabled := whenEnabled_eq decide_eq_true_iff _

/-- FLC.PROGRAM_UNIT (R262), of the unit the loop of R258 issues next. -/
theorem exec_flcProgramUnit (i : Nat) (s : State) :
    exec (.flcProgramUnit i) s =
      if s.fl.phase = .wMode ∧ s.fl.locked = false ∧ s.fl.mode = .program ∧ s.fl.busy = false ∧ s.fl.err = false ∧ s.fl.unit = i ∧
          i < s.fl.data.length / s.cfg.progUnit then
        .next (s.setFl { s.fl with busy := true, phase := .wBusy i })
      else .refused .phaseNotEnabled := by
  refine whenEnabled_eq ?_ _
  simp only [unitIsNext, unitWaitOver, Bool.and_eq_true, decide_eq_true_eq, Bool.not_eq_true']
  constructor
  · rintro ⟨⟨hphase, hlocked, hmode⟩, ⟨⟨hbusy, hunit⟩, hmore⟩, herr⟩
    exact ⟨hphase, hlocked, hmode, hbusy, herr, hunit.symm, hmore⟩
  · rintro ⟨hphase, hlocked, hmode, hbusy, herr, hunit, hmore⟩
    exact ⟨⟨hphase, hlocked, hmode⟩, ⟨⟨hbusy, hunit.symm⟩, hmore⟩, herr⟩

/-- Settles O42: each phase's equation, read under its precondition and without it. -/
theorem phasesUnlockSelectAndStart : Obligations.PhasesUnlockSelectAndStart := by
  intro s i
  rw [exec_flcSelectErase, exec_flcStartErase, exec_flcSelectProgram, exec_flcProgramUnit]
  refine ⟨exec_flcUnlock_of_ready, fun h => if_pos h, fun h hlocked => if_pos ⟨h, hlocked⟩, fun h => if_pos h,
    fun h hlocked hmode hbusy herr hunit hmore => if_pos ⟨h, hlocked, hmode, hbusy, herr, hunit, hmore⟩, ?unlock,
    exec_flcUnlock_of_halfway, fun h => if_neg h, fun h => if_neg ?startErase, fun h => if_neg h, fun h => if_neg ?programUnit⟩
  case unlock =>
    refine fun h => exec_flcUnlock_of_not_enabled ?_
    rintro ⟨hphase, hlocked, hop⟩
    simp [hphase, hlocked, hop] at h
  case startErase =>
    rintro ⟨hphase, hlocked⟩
    simp [hphase, hlocked] at h
  case programUnit =>
    rintro ⟨hphase, hlocked, hmode, hbusy, herr, hunit, hmore⟩
    simp [hphase, hlocked, hmode, hbusy, herr, hunit] at h
    omega

/-! ## Completions -/

/-- FLC.COMPLETE_ERASE (R254). -/
theorem exec_flcCompleteErase (s : State) :
    exec .flcCompleteErase s =
      if s.fl.phase = .eBusy then
        .next (s.setFl { s.fl with
          mem := erasedMem s, busy := false, complete := true, err := s.fl.err || Config.drawFail s.draws,
          phase := .eDone }).countDraw
      else .refused .phaseNotEnabled := whenEnabled_eq decide_eq_true_iff _

theorem erasedMem_wf {s : State} (h : s.fl.mem.wf) : (erasedMem s).wf := by
  unfold erasedMem
  split
  · exact memDraw_wf h _ _ _
  · exact memErase_wf _

/-- The region after an erase's completion (R254, R272). -/
theorem memGet_erasedMem {s : State} (h : s.fl.mem.wf) (a : Nat) :
    memGet (erasedMem s) a =
      if Config.drawFail s.draws = true then (if a < s.cfg.flashSize then Config.drawByte s.draws a else memGet s.fl.mem a)
      else erasedByte := by
  unfold erasedMem
  split
  · rw [memGet_memDraw h, Nat.zero_add]
    simp only [Nat.zero_le, true_and]
  · rfl

/-- Settles O43: the completion's equation and the region it leaves. -/
theorem eraseCompletes : Obligations.EraseCompletes := by
  intro s
  rw [exec_flcCompleteErase]
  exact ⟨fun hphase hwf => ⟨erasedMem s, if_pos hphase, erasedMem_wf hwf, memGet_erasedMem hwf⟩, fun hphase => if_neg hphase⟩

/-- FLC.COMPLETE_UNIT (R263). -/
theorem exec_flcCompleteUnit (i : Nat) (s : State) :
    exec (.flcCompleteUnit i) s =
      if s.fl.phase = .wBusy i then
        .next (s.setFl { s.fl with
          mem := programmedMem s i, busy := false, err := s.fl.err || Config.drawFail s.draws, phase := .wMode,
          unit := i + 1 }).countDraw
      else .refused .phaseNotEnabled := whenEnabled_eq decide_eq_true_iff _

theorem programmedMem_wf {s : State} (h : s.fl.mem.wf) (i : Nat) : (programmedMem s i).wf := by
  unfold programmedMem
  split
  · exact memDraw_wf h _ _ _
  · exact memProg_wf h _ _

theorem length_unitData {s : State} {i : Nat} (h : (i + 1) * s.cfg.progUnit ≤ s.fl.data.length) :
    (unitData s i).length = s.cfg.progUnit := by
  rw [Nat.succ_mul] at h
  simp only [unitData, List.length_take, List.length_drop]
  omega

/-- The data of a unit stands in the write's data at the unit's place (R262). -/
theorem getD_unitData {s : State} {i k : Nat} (h : k < s.cfg.progUnit) :
    (unitData s i).getD k 0 = s.fl.data.getD (i * s.cfg.progUnit + k) 0 := by
  simp [unitData, h]

/-- The region after a unit's completion (R263, R272). -/
theorem memGet_programmedMem {s : State} {i : Nat} (hwf : s.fl.mem.wf) (hdata : (i + 1) * s.cfg.progUnit ≤ s.fl.data.length)
    (a : Nat) :
    memGet (programmedMem s i) a =
      if unitOffset s i ≤ a ∧ a < unitOffset s i + s.cfg.progUnit then
        (if Config.drawFail s.draws = true then Config.drawByte s.draws a
          else memGet s.fl.mem a &&& s.fl.data.getD (a - s.fl.offset) 0)
      else memGet s.fl.mem a := by
  unfold programmedMem
  split
  · exact memGet_memDraw hwf ..
  · rw [memGet_memProg hwf, length_unitData hdata]
    split
    · next inUnit =>
      have place : i * s.cfg.progUnit + (a - unitOffset s i) = a - s.fl.offset := by
        unfold unitOffset at inUnit ⊢
        omega
      rw [getD_unitData (by omega), place]
    · rfl

/-- Settles O44: the completion's equation and the region it leaves. -/
theorem unitCompletes : Obligations.UnitCompletes := by
  intro s i a0
  rw [exec_flcCompleteUnit]
  refine ⟨fun hphase hwf hdata ha0 => ?_, fun hphase => if_neg hphase⟩
  subst ha0
  refine ⟨programmedMem s i, if_pos hphase, programmedMem_wf hwf i, fun a ha => ?_, fun a ha => ?_⟩
  · exact (memGet_programmedMem hwf hdata a).trans (if_pos ha)
  · exact (memGet_programmedMem hwf hdata a).trans (if_neg ha)

/-! ## The read-back and the lock -/

/-- FLC.VERIFY (R264), after the last unit. -/
theorem exec_flcVerify (s : State) :
    exec .flcVerify s =
      if s.fl.phase = .wMode ∧ s.fl.err = false ∧ s.fl.busy = false ∧ s.fl.unit = s.fl.data.length / s.cfg.progUnit then
        .next ((s.setFl { s.fl with phase := .wVerify, failed := !readBackMatches s }).setRet (.bool (readBackMatches s)))
      else .refused .phaseNotEnabled := by
  refine whenEnabled_eq ?_ _
  simp only [unitWaitOver, Bool.and_eq_true, decide_eq_true_eq, Bool.not_eq_true']
  constructor
  · rintro ⟨⟨hphase, herr, hunit⟩, hbusy⟩
    exact ⟨hphase, herr, hbusy, hunit⟩
  · rintro ⟨hphase, herr, hbusy, hunit⟩
    exact ⟨⟨hphase, herr, hunit⟩, hbusy⟩

/-- The read-back compares every byte of the written range (R264). -/
theorem readBackMatches_iff {s : State} (h : s.fl.offset + s.fl.data.length ≤ s.cfg.flashSize) :
    readBackMatches s = true ↔ ∀ k, k < s.fl.data.length → s.fl.data[k]? = some (memGet s.fl.mem (s.fl.offset + k)) := by
  rw [readBackMatches, memRead_of_le h, beq_iff_eq, Option.some.injEq]
  constructor
  · intro same k hk
    rw [← getElem?_memRange hk, same]
  · intro bytes
    refine List.ext_getElem? fun k => ?_
    by_cases hk : k < s.fl.data.length
    · rw [getElem?_memRange hk, bytes k hk]
    · rw [List.getElem?_eq_none (by simpa using hk), List.getElem?_eq_none (by omega)]

section
variable {s : State}

/-- FLC.LOCK at the end of an erase (R255, R256). -/
theorem exec_flcLock_of_eDone (hphase : s.fl.phase = .eDone) (hcomplete : s.fl.complete = true) :
    exec .flcLock s =
      .next (if s.fl.err = true then droppedState .eraseFailed (s.setFl (lockedFl s.fl))
        else (s.setFl (lockedFl s.fl)).setRet .ok) := by
  have locked : exec .flcLock s = execFlcLock s := rfl
  simp only [locked, execFlcLock, hphase, eraseWaitOver, hcomplete, if_true]
  cases s.fl.err <;> rfl

/-- FLC.LOCK after the read-back (R264). -/
theorem exec_flcLock_of_wVerify (hphase : s.fl.phase = .wVerify) :
    exec .flcLock s =
      .next (if s.fl.failed = true then droppedState .programFailed (s.setFl (lockedFl s.fl))
        else (s.setFl (lockedFl s.fl)).setRet .ok) := by
  have locked : exec .flcLock s = execFlcLock s := rfl
  simp only [locked, execFlcLock, hphase]
  cases s.fl.failed <;> rfl

/-- FLC.LOCK after a unit that failed (R263). -/
theorem exec_flcLock_of_wMode (hphase : s.fl.phase = .wMode) (herr : s.fl.err = true) (hbusy : s.fl.busy = false) :
    exec .flcLock s = .next (droppedState .programFailed (s.setFl (lockedFl s.fl))) := by
  have locked : exec .flcLock s = execFlcLock s := rfl
  simp only [locked, execFlcLock, hphase, unitWaitOver, herr, hbusy]
  rfl

/-- Where no sequence ends, FLC.LOCK is refused. -/
theorem exec_flcLock_of_not_ending (hdone : s.fl.phase = .eDone → s.fl.complete = false) (hverify : s.fl.phase ≠ .wVerify)
    (hmode : s.fl.phase = .wMode → s.fl.err = false ∨ s.fl.busy = true) : exec .flcLock s = .refused .phaseNotEnabled := by
  have locked : exec .flcLock s = execFlcLock s := rfl
  rw [locked, execFlcLock]
  split
  · next hphase => rw [eraseWaitOver, hdone hphase, if_neg Bool.false_ne_true]
  · next hphase => exact absurd hphase hverify
  · next hphase =>
    refine if_neg ?_
    rw [unitWaitOver, Bool.and_eq_true, Bool.not_eq_true']
    rintro ⟨herr, hbusy⟩
    simp [herr, hbusy] at hmode
    exact hmode hphase
  all_goals rfl

end

/-- Settles O45: the read-back's equation, and the ways FLC.LOCK ends a sequence or finds none to end. -/
theorem verifyAndLockEndTheSequence : Obligations.VerifyAndLockEndTheSequence := by
  intro s f hf
  have lockedFl_eq : lockedFl s.fl = f := hf.symm
  rw [exec_flcVerify]
  refine ⟨?verify, ?erased, ?verified, ?failedUnit, ?noVerify, ?noLock, ?unfinished, ?noFailure⟩
  case verify =>
    intro hphase herr hbusy hunit hregion
    exact ⟨readBackMatches s, readBackMatches_iff hregion, if_pos ⟨hphase, herr, hbusy, hunit⟩⟩
  case erased =>
    intro hphase hcomplete
    rw [exec_flcLock_of_eDone hphase hcomplete, lockedFl_eq]
    rfl
  case verified =>
    intro hphase
    rw [exec_flcLock_of_wVerify hphase, lockedFl_eq]
    rfl
  case failedUnit =>
    intro hphase herr hbusy
    rw [exec_flcLock_of_wMode hphase herr hbusy, lockedFl_eq]
    rfl
  case noVerify =>
    intro h
    refine if_neg ?_
    rintro ⟨hphase, herr, hbusy, hunit⟩
    simp [hphase, herr, hbusy, hunit] at h
  case noLock =>
    intro hdone hverify hmode
    exact exec_flcLock_of_not_ending (absurd · hdone) hverify (absurd · hmode)
  case unfinished =>
    intro hphase hcomplete
    exact exec_flcLock_of_not_ending (fun _ => hcomplete) (by simp [hphase]) (by simp [hphase])
  case noFailure =>
    intro hphase h
    exact exec_flcLock_of_not_ending (by simp [hphase]) (by simp [hphase]) (fun _ => h)

/-! ## FL.ERASE from end to end -/

theorem runInstrs_cons {i : Instr} {rest : List Instr} {s t : State} (h : exec i s = .next t) :
    runInstrs (i :: rest) s = runInstrs rest t := by
  rw [runInstrs, h]

/-- The state before FLC.COMPLETE_ERASE of a FL.ERASE issued in `s`. -/
def erasingState (s : State) : State :=
  s.setFl { s.fl with
    op := .erase, locked := false, keystep := 0, mode := .sectorErase, sector := s.cfg.flashSector, busy := true, complete := false,
    err := false, phase := .eBusy }

/-- The first phases of FL.ERASE change only the control fields (R250 to R253). -/
theorem runInstrs_startErase {s : State} (hphase : s.fl.phase = .ready) (hop : s.fl.op = .none) (hlocked : s.fl.locked = true)
    (hkey : s.fl.keystep = 0) (rest : List Instr) :
    runInstrs (.flErase :: .flcUnlock :: .flcSelectErase :: .flcStartErase :: rest) s = runInstrs rest (erasingState s) := by
  have unlock := exec_flcUnlock_of_ready (s := beginErase s) hphase hlocked nofun hkey
  rw [runInstrs_cons (exec_flErase_of_ready hphase hop), runInstrs_cons unlock]
  refine (runInstrs_cons ((exec_flcSelectErase _).trans (if_pos rfl))).trans ?_
  exact runInstrs_cons ((exec_flcStartErase _).trans (if_pos ⟨rfl, rfl⟩))

/-- Settles O46: the phases up to the completion, then the lock, which answers by the draw. -/
theorem eraseRunsToItsEnd : Obligations.EraseRunsToItsEnd := by
  intro s hphase hop hlocked hkey
  rw [runInstrs_startErase hphase hop hlocked hkey, runInstrs_cons ((exec_flcCompleteErase _).trans (if_pos rfl)),
    runInstrs_singleton, exec_flcLock_of_eDone rfl rfl]
  have failed : Config.drawFail (erasingState s).draws = Config.drawFail s.draws := rfl
  simp only [State.countDraw_fl, State.setFl_fl, failed, show (erasingState s).fl.err = false from rfl, Bool.false_or]
  refine ⟨_, rfl, ?_⟩
  cases hfail : Config.drawFail s.draws with
  | true => exact ⟨rfl, rfl, rfl, rfl, rfl, rfl, rfl⟩
  | false =>
    have erased : erasedMem (erasingState s) = [] := if_neg (by rw [failed, hfail]; exact Bool.false_ne_true)
    refine ⟨rfl, rfl, rfl, rfl, rfl, rfl, rfl, fun a => ?_⟩
    exact congrArg (memGet · a) erased

end Sys2Proof.Machine
end

section
/-! The fault and watchdog monitor: the reset, the watchdog's ticks, a hardfault from end to end (45_monitor.md), and the rows of the
error codes (60_exceptions.md). -/

namespace Sys2Proof.Machine

/-! ## Reset -/

theorem exec_sysReset_of_not_raised {c : Cause} {s : State} (h : resetRaised c s = false) :
    exec (.sysReset c) s = .refused .resetNotRaised := if_neg (Bool.eq_false_iff.mp h)

theorem watchdogExpires_eq_false_iff (s : State) :
    watchdogExpires s = false ↔ s.wdg.armed = false ∨ s.wdg.cnt + 1 < s.wdg.timeout := by
  rw [← Bool.not_eq_true, watchdogExpires_iff, not_and_or, Bool.not_eq_true, Nat.not_le]

theorem resetRaised_of {c : Cause} {s : State} (hfault : c = .hardFault → s.hf.phase = .logged ∧ s.hf.stuck = false)
    (hwatchdog : c = .watchdogTimeout → s.wdg.armed = true ∧ s.wdg.timeout ≤ s.wdg.cnt + 1) : resetRaised c s = true := by
  cases c with
  | hardFault => exact (sequencerAt_iff _ s).mpr (hfault rfl)
  | watchdogTimeout => exact (watchdogExpires_iff s).mpr (hwatchdog rfl)
  | external => rfl
  | powerOn => rfl

/-- A reset that finds the controller not busy keeps the region (R271). -/
theorem cutFlash_of_not_busy {s : State} (herase : s.fl.phase ≠ .eBusy) (hunit : ∀ i, s.fl.phase ≠ .wBusy i) : cutFlash s = s := by
  rcases cutFlash_cases s with kept | ⟨busy, -⟩ | ⟨i, busy, -⟩
  · exact kept
  · exact absurd busy herase
  · exact absurd busy (hunit i)

/-- A cut erase draws the whole region (R270). -/
theorem cutFlash_mem_of_eBusy {s : State} (h : s.fl.phase = .eBusy) :
    (cutFlash s).fl.mem = memDraw (Config.drawByte s.draws) s.fl.mem 0 s.cfg.flashSize := by
  simp only [cutFlash, h]
  rfl

/-- A cut unit draws that unit (R270). -/
theorem cutFlash_mem_of_wBusy {s : State} {i : Nat} (h : s.fl.phase = .wBusy i) :
    (cutFlash s).fl.mem = memDraw (Config.drawByte s.draws) s.fl.mem (unitOffset s i) s.cfg.progUnit := by
  simp only [cutFlash, h]
  rfl

/-- The fault record is dropped by a power-on, and by a build that does not retain it (R313). -/
theorem keptRecord_of_dropped {p : Params} {c : Cause} (h : p.retainFault = false ∨ c = .powerOn) (r : FaultRecord) :
    keptRecord p c r = { r with valid := false } := if_pos h

theorem keptRecord_of_retained {p : Params} {c : Cause} (hretain : p.retainFault = true) (hc : c ≠ .powerOn) (r : FaultRecord) :
    keptRecord p c r = r := if_neg (by simp [hretain, hc])

/-- Settles O49: `systemReset_eq` names every field; the region is `cutFlash`'s and the record `keptRecord`'s. -/
theorem resetRestartsTheBlock : Obligations.ResetRestartsTheBlock := by
  intro s c hwf
  refine ⟨fun hfault hwatchdog => ?runs, fun h => ?noFault, fun h => ?noExpiry⟩
  case noFault => exact exec_sysReset_of_not_raised ((sequencerAt_eq_false_iff _ s).mpr h)
  case noExpiry => exact exec_sysReset_of_not_raised ((watchdogExpires_eq_false_iff s).mpr h)
  case runs =>
    refine ⟨systemReset c s, exec_sysReset_of_raised (resetRaised_of hfault hwatchdog), ?_⟩
    rw [systemReset_eq]
    refine ⟨rfl, rfl, rfl, rfl, rfl, rfl, rfl, rfl, rfl, rfl, rfl, rfl, rfl, rfl, rfl, fun h => ?dropped, fun hretain hc => ?retained,
      rfl, rfl, rfl, rfl, rfl, rfl, fun herase hunit => ?kept, fun i hphase a ha => ?unit, fun hphase a ha => ?erase⟩
    case dropped => exact congrArg FaultRecord.valid (keptRecord_of_dropped h s.hf.record)
    case retained => exact keptRecord_of_retained hretain hc s.hf.record
    case kept => exact congrArg (·.fl.mem) (cutFlash_of_not_busy herase hunit)
    case unit =>
      refine (congrArg (memGet · a) (cutFlash_mem_of_wBusy hphase)).trans ?_
      exact (memGet_memDraw hwf ..).trans (if_neg ha)
    case erase =>
      refine (congrArg (memGet · a) (cutFlash_mem_of_eBusy hphase)).trans ?_
      exact (memGet_memDraw hwf ..).trans (if_neg (by omega))

/-- Settles O50: the fields evaluate, and each invariant is met with its premises false or its values at hand. -/
theorem resetStateIsSafe : Obligations.ResetStateIsSafe := by
  refine ⟨rfl, rfl, rfl, rfl, rfl, rfl, rfl, rfl, rfl, rfl, rfl, rfl, rfl, rfl, rfl, ?dec, nofun, ?write, ?wdg, ?hf⟩
  case dec => exact ⟨by decide, fun _ => rfl⟩
  case write => exact ⟨⟨⟨reset_mem_wf, nofun⟩, ⟨rfl, rfl, rfl, rfl, rfl⟩, rfl, nofun⟩, fun _ => nofun⟩
  case wdg => exact ⟨nofun, fun _ => rfl, ⟨fun _ => rfl, fun _ => rfl⟩⟩
  case hf => exact ⟨absurd rfl, fun h => h.elim nofun nofun, nofun, nofun⟩

/-! ## The watchdog -/

section
variable {s : State}

theorem exec_wdgArm_of_unarmed {timeout : Nat} (h : s.wdg.armed = false) (hpos : 0 < timeout) :
    exec (.wdgArm timeout) s = .next (s.setWdg { armed := true, timeout := timeout, cnt := 0 }) :=
  (if_neg (Bool.eq_false_iff.mp h)).trans (if_neg (Nat.ne_of_gt hpos))

theorem exec_wdgArm_of_armed (timeout : Nat) (h : s.wdg.armed = true) : exec (.wdgArm timeout) s = .refused .alreadyArmed := if_pos h

theorem exec_wdgArm_zero (h : s.wdg.armed = false) : exec (.wdgArm 0) s = .refused .timeoutZero :=
  (if_neg (Bool.eq_false_iff.mp h)).trans (if_pos rfl)

theorem exec_wdgFeed_of_armed (h : s.wdg.armed = true) : exec .wdgFeed s = .next (s.setWdg { s.wdg with cnt := 0 }) :=
  congrArg Host.Outcome.next (if_pos h)

theorem exec_wdgFeed_of_unarmed (h : s.wdg.armed = false) : exec .wdgFeed s = .next s :=
  congrArg Host.Outcome.next (if_neg (Bool.eq_false_iff.mp h))

/-- WDG.TICK is never refused. -/
theorem exec_wdgTick (s : State) : exec .wdgTick s = .next (watchdogTick s) := rfl

theorem watchdogTick_of_expired (h : s.wdg.armed = true) (hcnt : s.wdg.timeout ≤ s.wdg.cnt + 1) :
    watchdogTick s = systemReset .watchdogTimeout s := if_pos ((watchdogExpires_iff s).mpr ⟨h, hcnt⟩)

theorem watchdogTick_of_unarmed (h : s.wdg.armed = false) : watchdogTick s = s := by
  rw [watchdogTick, (watchdogExpires_eq_false_iff s).mpr (.inl h), h, if_neg Bool.false_ne_true, if_neg Bool.false_ne_true]

theorem watchdogTick_of_counting (h : s.wdg.armed = true) (hcnt : s.wdg.cnt + 1 < s.wdg.timeout) :
    watchdogTick s = s.setWdg { s.wdg with cnt := s.wdg.cnt + 1 } := by
  rw [watchdogTick, (watchdogExpires_eq_false_iff s).mpr (.inr hcnt), if_neg Bool.false_ne_true, if_pos h]

end

/-- Settles O52: the tick's three cases, and the two operations of SW. -/
theorem watchdogArmsFeedsAndTicks : Obligations.WatchdogArmsFeedsAndTicks := by
  intro s timeout
  refine ⟨exec_wdgArm_of_unarmed, exec_wdgArm_of_armed timeout, exec_wdgArm_zero, exec_wdgFeed_of_armed,
    fun h => ⟨exec_wdgFeed_of_unarmed h, ?_⟩, fun h hcnt => ?_, fun h hcnt => ⟨systemReset .watchdogTimeout s, ?_, ?_⟩⟩
  · rw [exec_wdgTick, watchdogTick_of_unarmed h]
  · rw [exec_wdgTick, watchdogTick_of_counting h hcnt]
    rfl
  · rw [exec_wdgTick, watchdogTick_of_expired h hcnt]
  · exact exec_sysReset_of_raised ((watchdogExpires_iff s).mpr ⟨h, hcnt⟩)

/-- Ticks below the timeout only count (R295). -/
theorem runInstrs_wdgTick_of_lt {s : State} (h : s.wdg.armed = true) (k : Nat) (hk : s.wdg.cnt + k < s.wdg.timeout) :
    runInstrs (List.replicate k .wdgTick) s = .next (s.setWdg { s.wdg with cnt := s.wdg.cnt + k }) := by
  induction k generalizing s with
  | zero => rfl
  | succ k ih =>
    have tick : exec .wdgTick s = .next (s.setWdg { s.wdg with cnt := s.wdg.cnt + 1 }) := by
      rw [exec_wdgTick, watchdogTick_of_counting h (by omega)]
    have below : s.wdg.cnt + 1 + k < s.wdg.timeout := by omega
    have order : s.wdg.cnt + 1 + k = s.wdg.cnt + (k + 1) := by omega
    rw [List.replicate_succ, runInstrs_cons tick, ih (s := s.setWdg { s.wdg with cnt := s.wdg.cnt + 1 }) h below]
    exact congrArg (fun n => Host.Outcome.next (s.setWdg { s.wdg with cnt := n })) order

/-- With the watchdog not armed ticks do nothing (R293). -/
theorem runInstrs_wdgTick_of_unarmed {s : State} (h : s.wdg.armed = false) (k : Nat) :
    runInstrs (List.replicate k .wdgTick) s = .next s := by
  induction k with
  | zero => rfl
  | succ k ih =>
    have tick : exec .wdgTick s = .next s := by rw [exec_wdgTick, watchdogTick_of_unarmed h]
    rw [List.replicate_succ, runInstrs_cons tick, ih]

theorem setWdg_cnt_zero {s : State} (h : s.wdg.cnt = 0) : s.setWdg { s.wdg with cnt := 0 } = s := by
  rw [← h]
  rfl

/-- A round of a healthy heartbeat ends where it began (R290, R297). -/
theorem runInstrs_heartbeatRound {s : State} (h : s.wdg.armed = true) (hcnt : s.wdg.cnt = 0)
    (hperiod : s.cfg.feedPeriod < s.wdg.timeout) : runInstrs (heartbeatRound s.cfg) s = .next s := by
  have ticks := runInstrs_wdgTick_of_lt h s.cfg.feedPeriod (by omega)
  have fed := exec_wdgFeed_of_armed (s := s.setWdg { s.wdg with cnt := s.wdg.cnt + s.cfg.feedPeriod }) h
  rw [heartbeatRound, runInstrs_append ticks, runInstrs_singleton]
  refine fed.trans ?_
  exact congrArg Host.Outcome.next (setWdg_cnt_zero hcnt)

/-- Settles O53: the ticks before the timeout count, the one at it resets, and those after it find the watchdog not armed. -/
theorem watchdogFiresOnceAtTheTimeout : Obligations.WatchdogFiresOnceAtTheTimeout := by
  intro s k harmed hcnt hpos
  refine ⟨fun below => ?below, fun reached => ?reached, fun hperiod => ?heartbeat⟩
  case below =>
    rw [runInstrs_wdgTick_of_lt harmed k (by omega), hcnt, Nat.zero_add]
    rfl
  case reached =>
    have parts : k = (s.wdg.timeout - 1) + (1 + (k - s.wdg.timeout)) := by omega
    have count := runInstrs_wdgTick_of_lt harmed (s.wdg.timeout - 1) (by omega)
    have expire := watchdogTick_of_expired (s := s.setWdg { s.wdg with cnt := s.wdg.cnt + (s.wdg.timeout - 1) }) harmed
      (show s.wdg.timeout ≤ s.wdg.cnt + (s.wdg.timeout - 1) + 1 by omega)
    refine ⟨systemReset .watchdogTimeout (s.setWdg { s.wdg with cnt := s.wdg.cnt + (s.wdg.timeout - 1) }), ?_, ?_⟩
    · rw [parts, List.replicate_add, runInstrs_append count, List.replicate_add]
      refine (runInstrs_append ((runInstrs_singleton ..).trans ((exec_wdgTick _).trans (congrArg _ expire)))).trans ?_
      exact runInstrs_wdgTick_of_unarmed (by rw [systemReset_eq]; rfl) _
    · rw [systemReset_eq]
      exact ⟨rfl, rfl, rfl⟩
  case heartbeat =>
    induction k with
    | zero => rfl
    | succ k ih =>
      rw [List.replicate_succ, List.flatten_cons, runInstrs_append (runInstrs_heartbeatRound harmed hcnt hperiod), ih]

/-! ## A hardfault from end to end -/

/-- The state before HF.RESET of a fault taken in `s`. -/
def loggedState (regs : FaultRegs) (s : State) : State :=
  (s.emitLog (.hardFault regs)).setHf { s.hf with phase := .logged, input := regs, record := { valid := true, regs := regs } }

/-- Entry, capture and log leave every unit but the sequencer as it was (R305 to R307). -/
theorem runInstrs_hardFault {s : State} {pc lr : Nat} {fsr : List Nat} (hregs : faultRegsOk s.cfg pc lr fsr = true)
    (hidle : s.hf.phase = .idle) (hstuck : s.hf.stuck = false) (rest : List Instr) :
    runInstrs (.hfEnter pc lr fsr :: .hfCapture :: .hfLog :: rest) s = runInstrs rest (loggedState { pc, lr, fsr } s) := by
  have entered : sequencerAt .entered (s.setHf { s.hf with phase := .entered, input := { pc, lr, fsr } }) = true :=
    (sequencerAt_iff ..).mpr ⟨rfl, hstuck⟩
  have captured : sequencerAt .captured (s.setHf { s.hf with
      phase := .captured, input := { pc, lr, fsr }, record := { valid := true, regs := { pc, lr, fsr } } }) = true :=
    (sequencerAt_iff ..).mpr ⟨rfl, hstuck⟩
  rw [runInstrs_cons (exec_hfEnter_of_regsOk hregs), enterHardFault_of_idle hidle, runInstrs_cons (exec_hfCapture_of_entered entered)]
  exact runInstrs_cons (exec_hfLog_of_captured captured rfl)

/-- Settles O55: the three steps to the log, then the reset, of which `keptRecord` says what it does to the record. -/
theorem hardFaultSequenceLogsAndResets : Obligations.HardFaultSequenceLogsAndResets := by
  intro s pc lr fsr hregs hidle hstuck
  have logged : sequencerAt .logged (loggedState { pc, lr, fsr } s) = true := (sequencerAt_iff ..).mpr ⟨rfl, hstuck⟩
  refine ⟨systemReset .hardFault (loggedState { pc, lr, fsr } s), ?_, ?_⟩
  · rw [runInstrs_hardFault hregs hidle hstuck, runInstrs_singleton, exec_hfReset_of_logged logged]
  · rw [systemReset_eq]
    refine ⟨rfl, rfl, rfl, rfl, rfl, rfl, fun hretain => ?_, fun hdrop => ?_⟩
    · exact keptRecord_of_retained hretain (by decide) _
    · exact congrArg FaultRecord.valid (keptRecord_of_dropped (.inl hdrop) _)

/-! ## The rows of the error codes -/

/-- A row of the error codes runs where its operation returns the error (log 17). -/
theorem whenRaised_of_ret {e : ErrorName} {t : State} (h : t.ret = .err e) : whenRaised e (.next t) = .next t := if_pos h

/-- It is refused where the operation returns something else. -/
theorem whenRaised_of_ret_ne {e : ErrorName} {t : State} (h : t.ret ≠ .err e) : whenRaised e (.next t) = .refused .errorNotRaised :=
  if_neg h

/-- So a row is the operation's error state exactly under the condition of its line, whatever it answers otherwise. -/
theorem whenRaised_eq {e : ErrorName} {p : Prop} [Decidable p] {t u : State} (hraised : p → t = u ∧ u.ret = .err e)
    (hother : ¬p → t.ret ≠ .err e) : whenRaised e (.next t) = if p then .next u else .refused .errorNotRaised := by
  split
  · next h =>
    obtain ⟨rfl, hret⟩ := hraised h
    exact whenRaised_of_ret hret
  · next h => exact whenRaised_of_ret_ne (hother h)

/-- A flag returns `Truncated` for an escape cut short and for a candidate of one byte (R159, R162). -/
theorem exec_errTruncated (s : State) :
    exec .errTruncated s =
      if s.dec.st = .escaped ∨ s.dec.st = .inFrame ∧ s.dec.acc.length = 1 then .next (frameErrorState .truncated s)
      else .refused .errorNotRaised := by
  refine whenRaised_eq (fun h => ⟨?raised, rfl⟩) (fun h => ?other)
  case raised =>
    rcases h with hst | ⟨hst, hone⟩
    · exact push_flag_of_escaped hst
    · have held : s.dec.acc ≠ [] := by rintro hacc; simp [hacc] at hone
      rw [push_flag_of_nonempty hst held, onFlagNonempty, decComplete_of_lt (by omega)]
      rfl
  case other =>
    rw [not_or, not_and] at h
    obtain ⟨hnot_escaped, hnot_one⟩ := h
    cases hst : s.dec.st with
    | idle => rw [push_flag_of_idle hst]; nofun
    | escaped => exact absurd hst hnot_escaped
    | inFrame =>
      by_cases hacc : s.dec.acc = []
      · rw [push_flag_of_empty hst hacc]; nofun
      · have pos := List.length_pos_iff.mpr hacc
        have ne_one := hnot_one hst
        rw [push_flag_of_nonempty hst hacc]
        rcases decComplete_cases s.dec.acc (s.setDec Dec.reset) with ⟨short, -⟩ | ⟨-, -, -, mismatch⟩ | ⟨-, -, delivered⟩
        · omega
        · rw [onFlagNonempty, mismatch]; nofun
        · rw [onFlagNonempty, delivered]; nofun

theorem ret_decAppend_of_room {s : State} (h : s.dec.acc.length ≠ s.cfg.maxBody) (v : Byte) : (decAppend v s).ret = .nothing := by
  rw [decAppend_eq, if_neg h]

/-- A body byte returns `Overflow` exactly when the accumulator is full (R160). -/
theorem exec_errOverflow (s : State) :
    exec .errOverflow s =
      if s.dec.st ≠ .idle ∧ s.dec.acc.length = s.cfg.maxBody then .next (frameErrorState .overflow s)
      else .refused .errorNotRaised := by
  have appended (hst : s.dec.st ≠ .idle) : ∃ v, push 0x00 s = decAppend v s := by
    cases h : s.dec.st with
    | idle => exact absurd h hst
    | inFrame => exact ⟨_, push_data_of_inFrame h (by decide) (by decide)⟩
    | escaped => exact ⟨_, push_of_escaped h (by decide)⟩
  refine whenRaised_eq (fun h => ⟨?raised, rfl⟩) (fun h => ?other)
  case raised =>
    obtain ⟨hst, hfull⟩ := h
    obtain ⟨v, hv⟩ := appended hst
    rw [hv, decAppend_eq, if_pos hfull]
  case other =>
    by_cases hst : s.dec.st = .idle
    · rw [push_of_idle hst (by decide)]; nofun
    · obtain ⟨v, hv⟩ := appended hst
      rw [hv, ret_decAppend_of_room (not_and.mp h hst)]; nofun

/-- A flag that closes no candidate with a trailer does not return `CrcMismatch` (R163). -/
theorem exec_errCrcMismatch_of_no_trailer {s : State} (h : s.dec.st ≠ .inFrame ∨ s.dec.acc.length < 2) :
    exec .errCrcMismatch s = .refused .errorNotRaised := by
  refine whenRaised_of_ret_ne ?_
  cases hst : s.dec.st with
  | idle => rw [push_flag_of_idle hst]; nofun
  | escaped => rw [push_flag_of_escaped hst]; nofun
  | inFrame =>
    have short : s.dec.acc.length < 2 := by simpa [hst] using h
    by_cases hacc : s.dec.acc = []
    · rw [push_flag_of_empty hst hacc]; nofun
    · rw [push_flag_of_nonempty hst hacc, onFlagNonempty, decComplete_of_lt short]; nofun

theorem exec_errCrcMismatch_of_trailer {s : State} {payload : Bytes} {t0 t1 : Byte} (hst : s.dec.st = .inFrame)
    (hacc : s.dec.acc = payload ++ [t0, t1]) :
    exec .errCrcMismatch s =
      if s.cfg.useCrc = true ∧ crc16 payload ≠ le16 t0 t1 then .next (frameErrorState .crcMismatch s)
      else .refused .errorNotRaised := by
  have held : s.dec.acc ≠ [] := by simp [hacc]
  have completed : push flagByte s = decComplete (payload ++ [t0, t1]) (s.setDec Dec.reset) := by
    rw [push_flag_of_nonempty hst held, onFlagNonempty, hacc]
  refine whenRaised_eq (fun h => ⟨?raised, rfl⟩) (fun h => ?other)
  case raised =>
    rw [completed, decComplete_append]
    exact if_pos h
  case other =>
    have accepted : ¬((s.setDec Dec.reset).cfg.useCrc = true ∧ crc16 payload ≠ le16 t0 t1) := h
    rw [completed, decComplete_append, if_neg accepted]
    nofun

/-- A row whose operation drops the request. -/
theorem whenRaised_droppedState (e : ErrorName) (s : State) :
    whenRaised e (.next (droppedState e s)) = .next (droppedState e s) := whenRaised_of_ret rfl

/-- No payload is no header (R210). -/
theorem exec_errMalformedHeader (s : State) : exec .errMalformedHeader s = .next (droppedState .malformedHeader s) := by
  have received : receive [] s = .next (droppedState .malformedHeader s) := exec_msgRecv_of_short (p := []) (by decide) s
  have row : exec .errMalformedHeader s = whenRaised .malformedHeader (receive [] s) := rfl
  rw [row, received, whenRaised_droppedState]

/-- What a row of the message errors receives: an empty fragment with this header. -/
theorem receive_empty_fragment {command count index : Half} {id : Byte} (hindex : index.toNat < count.toNat) (s : State) :
    receive (headerBytes command id count index 0) s =
      acceptFragment { command, id, count, index, length := 0, data := [] } s := by
  have received := exec_msgRecv_of_valid (command := command) (count := count) (index := index) (length := 0) (id := id) (data := [])
    rfl (by decide) hindex s
  rw [List.append_nil] at received
  exact received

/-- A second fragment that fits no context: refused by its index without one, by its count with one (R215, R219). -/
theorem exec_errFragmentOutOfOrder (s : State) :
    exec .errFragmentOutOfOrder s =
      .next (droppedState .fragmentOutOfOrder { s with ctx := { s.ctx with active := false } }) := by
  have row : exec .errFragmentOutOfOrder s = whenRaised .fragmentOutOfOrder (receive (straySecondFragment s) s) := rfl
  have long : 2 ≤ (if s.ctx.count = 2 then 3 else 2 : Half).toNat := by split <;> decide
  suffices h : receive (straySecondFragment s) s =
      .next (droppedState .fragmentOutOfOrder (s.setCtx { s.ctx with active := false })) by
    rw [row, h]
    exact whenRaised_droppedState ..
  rw [straySecondFragment, receive_empty_fragment (Nat.lt_of_lt_of_le (by decide) long)]
  cases hactive : s.ctx.active with
  | false =>
    rw [acceptFragment_of_inactive hactive long, if_pos (show (1 : Half) ≠ 0 by decide)]
    exact congrArg (fun u => Host.Outcome.next (droppedState .fragmentOutOfOrder u)) (setCtx_release_of_inactive hactive).symm
  | true =>
    have other_count : (if s.ctx.count = 2 then 3 else 2 : Half) ≠ s.ctx.count := by
      split
      · next two => rw [two]; decide
      · next not_two => exact Ne.symm not_two
    rw [acceptFragment_of_active hactive long, if_neg (not_not.mpr rfl)]
    exact matchFragment_of_count_ne other_count

/-- The first fragment of another message than the context's (R214). -/
theorem exec_errReassemblyBusy (s : State) :
    exec .errReassemblyBusy s =
      if s.ctx.active = true then .next (droppedState .reassemblyBusy s) else .refused .errorNotRaised := by
  have row : exec .errReassemblyBusy s = whenRaised .reassemblyBusy (receive (headerBytes 0 (s.ctx.id + 1) 2 0 0) s) := rfl
  have long : 2 ≤ (2 : Half).toNat := by decide
  rw [row, receive_empty_fragment (by decide)]
  split
  · next hactive =>
    have other_id : s.ctx.id + 1 ≠ s.ctx.id := by bv_omega
    rw [acceptFragment_of_active hactive long, if_pos other_id, whenRaised_droppedState]
  · next hactive =>
    rw [Bool.not_eq_true] at hactive
    rw [acceptFragment_of_inactive hactive long, if_neg (not_not.mpr rfl)]
    split
    · exact whenRaised_of_ret_ne nofun
    · rw [matchFragment_allocated rfl long]
      exact whenRaised_of_ret_ne nofun

/-- A message of one fragment with code 0, which has no handler (R224). -/
theorem exec_errUnknownCommand (s : State) : exec .errUnknownCommand s = .next (droppedState .unknownCommand s) := by
  have row : exec .errUnknownCommand s = whenRaised .unknownCommand (receive (headerBytes 0 0 1 0 0) s) := rfl
  have unknown : readCommandCode 0 0 [] = .cmdUnknown 0 0 [] := rfl
  rw [row, receive_empty_fragment (by decide), acceptFragment_of_single rfl, unknown,
    exec_cmdUnknown (by decide) (by decide) (by decide) (by decide), whenRaised_droppedState]

/-- FL.WRITE of no data at offset 0 looks at the scan alone (R258). -/
theorem exec_errNotClean_of_ready {s : State} (hphase : s.fl.phase = .ready) (hop : s.fl.op = .none) :
    exec .errNotClean s = if regionDirty s then .next (droppedState .notClean s) else .refused .errorNotRaised := by
  have written := exec_flWrite_of_ready hphase hop 0 []
  have inside : 0 + ([] : Bytes).length ≤ s.cfg.flashSize := Nat.zero_le _
  have on_units : 0 % s.cfg.progUnit = 0 ∧ ([] : Bytes).length % s.cfg.progUnit = 0 := ⟨Nat.zero_mod _, Nat.zero_mod _⟩
  rw [if_pos inside, if_pos on_units, if_pos rfl] at written
  have row : exec .errNotClean s = whenRaised .notClean (exec (.flWrite 0 []) s) := rfl
  rw [row, written]
  split
  · exact whenRaised_droppedState ..
  · exact whenRaised_of_ret_ne nofun

section
variable {s : State}

/-- The lock of a failed erase (R272). -/
theorem exec_errEraseFailed_of_failed (hphase : s.fl.phase = .eDone) (hcomplete : s.fl.complete = true) (herr : s.fl.err = true) :
    exec .errEraseFailed s = .next (droppedState .eraseFailed (s.setFl (lockedFl s.fl))) := by
  have row : exec .errEraseFailed s = whenRaised .eraseFailed (exec .flcLock s) := rfl
  rw [row, exec_flcLock_of_eDone hphase hcomplete, if_pos herr, whenRaised_droppedState]

/-- The lock of a failed write (R258, R264). -/
theorem exec_errProgramFailed_of_failed
    (h : s.fl.phase = .wVerify ∧ s.fl.failed = true ∨ s.fl.phase = .wMode ∧ s.fl.err = true ∧ s.fl.busy = false) :
    exec .errProgramFailed s = .next (droppedState .programFailed (s.setFl (lockedFl s.fl))) := by
  have row : exec .errProgramFailed s = whenRaised .programFailed (exec .flcLock s) := rfl
  rcases h with ⟨hphase, hfailed⟩ | ⟨hphase, herr, hbusy⟩
  · rw [row, exec_flcLock_of_wVerify hphase, if_pos hfailed, whenRaised_droppedState]
  · rw [row, exec_flcLock_of_wMode hphase herr hbusy, whenRaised_droppedState]

/-- A row of a lock's error that does not run is refused: FLC.LOCK is an operation without a fault. -/
theorem whenRaised_flcLock_refused {e : ErrorName} (h : ∀ t, execFlcLock s = .next t → t.ret ≠ .err e) :
    ∃ r, whenRaised e (execFlcLock s) = .refused r := by
  cases hlock : execFlcLock s with
  | next t => exact ⟨_, whenRaised_of_ret_ne (h t hlock)⟩
  | refused r => exact ⟨r, rfl⟩
  | fault =>
    unfold execFlcLock at hlock
    split at hlock
    · split at hlock <;> cases hlock
    · cases hlock
    · split at hlock <;> cases hlock
    all_goals cases hlock

/-- An erase that did not fail, or did not end, raises no `EraseFailed`. -/
theorem exec_errEraseFailed_refused (h : s.fl.phase ≠ .eDone ∨ s.fl.complete = false ∨ s.fl.err = false) :
    ∃ r, exec .errEraseFailed s = .refused r := by
  refine whenRaised_flcLock_refused fun t hlock => ?_
  rcases execFlcLock_next hlock with ⟨hphase, hcomplete, rfl⟩ | ⟨-, rfl⟩ | ⟨-, -, -, rfl⟩
  · have herr : s.fl.err = false := by simpa [hphase, hcomplete] using h
    rw [herr]; nofun
  · cases s.fl.failed <;> nofun
  · nofun

/-- So does a write, with `ProgramFailed`. -/
theorem exec_errProgramFailed_refused
    (h : ¬(s.fl.phase = .wVerify ∧ s.fl.failed = true ∨ s.fl.phase = .wMode ∧ s.fl.err = true ∧ s.fl.busy = false)) :
    ∃ r, exec .errProgramFailed s = .refused r := by
  refine whenRaised_flcLock_refused fun t hlock => ?_
  rcases execFlcLock_next hlock with ⟨-, -, rfl⟩ | ⟨hphase, rfl⟩ | ⟨hphase, herr, hbusy, -⟩
  · cases s.fl.err <;> nofun
  · have hfailed : s.fl.failed = false := by simpa [hphase] using h
    rw [hfailed]; nofun
  · exact absurd (.inr ⟨hphase, herr, hbusy⟩) h

theorem exec_errWatchdogTimeout_of_expired (h : watchdogExpires s = true) :
    exec .errWatchdogTimeout s = .next (watchdogTick s) := if_pos h

theorem exec_errWatchdogTimeout_of_not_expired (h : watchdogExpires s = false) :
    exec .errWatchdogTimeout s = .refused .resetNotRaised := if_neg (Bool.eq_false_iff.mp h)

end

/-- Settles O59: one equation per row, under the condition of its line and without it. -/
theorem errorsAreRaised : Obligations.ErrorsAreRaised := by
  intro s pc lr fsr f hf
  have lockedFl_eq : s.setFl (lockedFl s.fl) = { s with fl := f } := by rw [hf]; rfl
  refine ⟨exec_errTruncated s, exec_errOverflow s, exec_errCrcMismatch_of_no_trailer, fun _ _ _ => exec_errCrcMismatch_of_trailer,
    exec_errMalformedHeader s, exec_errFragmentOutOfOrder s, exec_errReassemblyBusy s, exec_errUnknownCommand s,
    fun hphase hop => ⟨fun dirty => ?dirty, fun clean => ?clean⟩, fun busy => ?busy, ?erase, exec_errEraseFailed_refused, ?program,
    exec_errProgramFailed_refused, fun hregs => ?hardFault, fun harmed hcnt => ?expiry, fun h => ?noExpiry⟩
  case dirty => rw [exec_errNotClean_of_ready hphase hop, regionDirty_of_exists dirty, if_pos rfl]
  case clean => rw [exec_errNotClean_of_ready hphase hop, regionDirty_of_forall clean, if_neg Bool.false_ne_true]
  case busy => exact congrArg (whenRaised .notClean) (whenFlIdle_of_busy busy _)
  case erase =>
    intro hphase hcomplete herr
    rw [exec_errEraseFailed_of_failed hphase hcomplete herr, lockedFl_eq]
  case program =>
    intro failed
    rw [exec_errProgramFailed_of_failed failed, lockedFl_eq]
  case hardFault => exact ⟨_, exec_hfEnter_of_regsOk hregs, exec_hfEnter_of_regsOk hregs⟩
  case expiry =>
    exact ⟨_, exec_wdgTick s, exec_errWatchdogTimeout_of_expired ((watchdogExpires_iff s).mpr ⟨harmed, hcnt⟩)⟩
  case noExpiry => exact exec_errWatchdogTimeout_of_not_expired ((watchdogExpires_eq_false_iff s).mpr h)

end Sys2Proof.Machine
end

section
/-! What an instruction can do, unit by unit: every row's next state is a move of the row's own unit, or a reset (10_state.md R20, R21).
The invariants of the whole machine are read off these moves. -/

namespace Sys2Proof.Machine

/-! ## The moves of each unit -/

/-- A row of the decoder consumes one byte, consumes two, or clears the decoder. -/
inductive DecMove (s : State) : State → Prop where
  | byte (b : Byte) : DecMove s (push b s)
  | pair (b0 b1 : Byte) : DecMove s (pushPair b0 b1 s)
  | clear : DecMove s (s.setDec Dec.reset)

/-- A row of the message layer sends, dispatches, receives, or counts a tick. -/
inductive MsgMove (s : State) : State → Prop where
  | send {command : Half} {id : Byte} {payload : Bytes} {t : State} (h : sendMessage command id payload s = .next t) : MsgMove s t
  | dispatch {command : Half} {id : Byte} {data : Bytes} {t : State} (h : Machine.dispatch command id data s = .next t) : MsgMove s t
  | receive {p : Bytes} {t : State} (h : Machine.receive p s = .next t) : MsgMove s t
  | tick : MsgMove s (s.setCtx (ctxTick s.cfg s.ctx))

/-- A row of the flash unit answers and changes nothing, enters an operation, or is one of its phases; the two completions are told by
their rows. -/
inductive FlMove (i : Instr) (s : State) : State → Prop where
  | answer (r : Result) : FlMove i s (s.setRet r)
  | notClean : FlMove i s (droppedState .notClean s)
  | beginErase (hphase : s.fl.phase = .ready) (hop : s.fl.op = .none) : FlMove i s (Machine.beginErase s)
  | beginWrite {offset : Nat} {data : Bytes} (hphase : s.fl.phase = .ready) (hop : s.fl.op = .none)
      (hregion : offset + data.length ≤ s.cfg.flashSize)
      (hunits : offset % s.cfg.progUnit = 0 ∧ data.length % s.cfg.progUnit = 0) (hclean : regionDirty s = false) :
      FlMove i s (Machine.beginWrite offset data s)
  | unlock {f : Fl} (hphase : s.fl.phase = .ready) (hop : s.fl.op ≠ .none) (hkeys : unlockSequence s.cfg s.fl = some f) :
      FlMove i s (s.setFl { f with phase := unlockedPhase f.op })
  | selectErase (hphase : s.fl.phase = .eUnlocked) :
      FlMove i s (s.setFl { s.fl with mode := .sectorErase, sector := s.cfg.flashSector, phase := .eSelected })
  | startErase (hphase : s.fl.phase = .eSelected) :
      FlMove i s (s.setFl { s.fl with busy := true, complete := false, err := false, phase := .eBusy })
  | completeErase (hi : i = .flcCompleteErase) (hphase : s.fl.phase = .eBusy) :
      FlMove i s (s.setFl { s.fl with
        mem := erasedMem s, busy := false, complete := true, err := s.fl.err || Config.drawFail s.draws, phase := .eDone }).countDraw
  | selectProgram (hphase : s.fl.phase = .wUnlocked) :
      FlMove i s (s.setFl { s.fl with mode := .program, err := false, phase := .wMode })
  | programUnit {j : Nat} (hphase : s.fl.phase = .wMode) (herr : s.fl.err = false) (hunit : s.fl.unit = j)
      (hmore : j < s.fl.data.length / s.cfg.progUnit) :
      FlMove i s (s.setFl { s.fl with busy := true, phase := .wBusy j })
  | completeUnit {j : Nat} (hi : i = .flcCompleteUnit j) (hphase : s.fl.phase = .wBusy j) :
      FlMove i s (s.setFl { s.fl with
        mem := programmedMem s j, busy := false, err := s.fl.err || Config.drawFail s.draws, phase := .wMode,
        unit := j + 1 }).countDraw
  | verify (failed : Bool) (r : Result) (hphase : s.fl.phase = .wMode) (herr : s.fl.err = false) :
      FlMove i s ((s.setFl { s.fl with phase := .wVerify, failed := failed }).setRet r)
  | lock (r : Result) (log : List LogEvent) : FlMove i s { s with fl := lockedFl s.fl, ret := r, log := log }

/-- A row of the watchdog arms it, feeds it, counts a tick, or finds it not armed. -/
inductive WdgMove (i : Instr) (s : State) : State → Prop where
  | arm {timeout : Nat} (hi : i = .wdgArm timeout) (hunarmed : s.wdg.armed = false) (hpos : 0 < timeout) :
      WdgMove i s (s.setWdg { armed := true, timeout := timeout, cnt := 0 })
  | feed (hi : i = .wdgFeed) : WdgMove i s (s.setWdg { s.wdg with cnt := 0 })
  | count (hi : i = .wdgTick) (harmed : s.wdg.armed = true) (hbelow : s.wdg.cnt + 1 < s.wdg.timeout) :
      WdgMove i s (s.setWdg { s.wdg with cnt := s.wdg.cnt + 1 })
  | rest (hi : i = .wdgFeed ∨ i = .wdgTick) : WdgMove i s s

/-- A row of the hardfault sequencer is the trap entry or one of the two steps before the reset. -/
inductive HfMove (i : Instr) (s : State) : State → Prop where
  | enter {pc lr : Nat} {fsr : List Nat} (hi : i = .hfEnter pc lr fsr ∨ i = .errHardFault pc lr fsr)
      (hregs : faultRegsOk s.cfg pc lr fsr = true) : HfMove i s (enterHardFault { pc, lr, fsr } s)
  | capture (hphase : s.hf.phase = .entered) :
      HfMove i s (s.setHf { s.hf with record := { valid := true, regs := s.hf.input }, phase := .captured })
  | log (hphase : s.hf.phase = .captured) :
      HfMove i s ((s.emitLog (.hardFault s.hf.record.regs)).setHf { s.hf with phase := .logged })

/-- A move of a unit, by the unit's name. The encoder and the CRC engine have no state of their own, and SYS.RESET makes no move but the
reset. -/
def UnitMove (u : UnitName) (i : Instr) (s t : State) : Prop :=
  match u with
  | .enc => ∃ (tx : Bytes) (r : Result), t = { s with tx := tx, ret := r }
  | .dec => DecMove s t
  | .crc => ∃ r : Result, t = { s with ret := r }
  | .msg => MsgMove s t
  | .fl => FlMove i s t
  | .wdg => WdgMove i s t
  | .hf => HfMove i s t
  | .sys => False

/-! ## Every row makes one of them -/

section
variable {i : Instr} {s t : State}

theorem DecMove.of_push {b : Byte} (h : push b s = t) : DecMove s t := h ▸ .byte b

/-- A cell that runs is DEC.PUSH of a byte that selects it (R150). -/
theorem DecMove.of_cell {selected : Prop} [Decidable selected] {b : Byte} {u : State} (hpush : selected → push b s = u)
    (h : whenSelected (decide selected) u = .next t) : DecMove s t := by
  obtain ⟨hselected, rfl⟩ := whenSelected_next h
  exact .of_push (hpush (of_decide_eq_true hselected))

/-- A row of a frame error that runs is DEC.PUSH (log 17). -/
theorem DecMove.of_error {e : ErrorName} {b : Byte} (h : whenRaised e (.next (push b s)) = .next t) : DecMove s t := by
  obtain ⟨hpush, -⟩ := whenRaised_next h
  cases hpush
  exact .byte b

/-- A row of a message error that runs is MSG.RECV (log 17). -/
theorem MsgMove.of_error {e : ErrorName} {p : Bytes} (h : whenRaised e (Machine.receive p s) = .next t) : MsgMove s t :=
  .receive (whenRaised_next h).1

/-- A phase or a step that answers a next state was enabled. -/
theorem of_ite_next {p : Prop} [Decidable p] {r : Refusal} {u : State}
    (h : (if p then .next u else .refused r : Host.Outcome State Fault Refusal) = .next t) : p ∧ u = t := by
  split at h
  · cases h
    exact ⟨‹p›, rfl⟩
  · cases h

theorem FlMove.of_flWrite {offset : Nat} {data : Bytes} (h : exec (.flWrite offset data) s = .next t) : FlMove i s t := by
  obtain ⟨hphase, hop, -⟩ := whenFlIdle_next h
  rw [exec_flWrite_of_ready hphase hop] at h
  split at h
  · next hregion =>
    obtain ⟨hunits, rfl⟩ := of_ite_next h
    split
    · exact .notClean
    · next hclean =>
      split
      · exact .answer _
      · exact .beginWrite hphase hop hregion hunits (by simpa using hclean)
  · cases h

theorem FlMove.of_flRead {offset length : Nat} (h : exec (.flRead offset length) s = .next t) : FlMove i s t := by
  obtain ⟨-, -, h⟩ := whenFlIdle_next h
  split at h
  · cases h
    exact .answer _
  · cases h

theorem FlMove.of_flBoot (h : exec .flBoot s = .next t) : FlMove i s t := by
  obtain ⟨hphase, hop, h⟩ := whenFlIdle_next h
  cases h
  split
  · exact .beginErase hphase hop
  · exact .answer _

theorem FlMove.of_flcUnlock (h : exec .flcUnlock s = .next t) : FlMove i s t := by
  have unlocked : exec .flcUnlock s = execFlcUnlock s := rfl
  rw [unlocked, execFlcUnlock] at h
  split at h
  · next hready =>
    split at h
    · next f hkeys =>
      cases h
      exact .unlock hready.1 hready.2.2 hkeys
    · cases h
  · cases h

/-- Whatever it returns, FLC.LOCK leaves the unit locked (R256). -/
theorem FlMove.of_flcLock (h : execFlcLock s = .next t) : FlMove i s t := by
  rcases execFlcLock_next h with ⟨-, -, rfl⟩ | ⟨-, rfl⟩ | ⟨-, -, -, rfl⟩
  · cases s.fl.err <;> exact .lock _ _
  · cases s.fl.failed <;> exact .lock _ _
  · exact .lock _ _

theorem WdgMove.of_wdgArm {timeout : Nat} (h : exec (.wdgArm timeout) s = .next t) : WdgMove (.wdgArm timeout) s t := by
  cases harmed : s.wdg.armed with
  | true => rw [exec_wdgArm_of_armed timeout harmed] at h; cases h
  | false =>
    rcases Nat.eq_zero_or_pos timeout with rfl | hpos
    · rw [exec_wdgArm_zero harmed] at h; cases h
    · rw [exec_wdgArm_of_unarmed harmed hpos] at h
      cases h
      exact .arm rfl harmed hpos

theorem WdgMove.of_wdgFeed (h : exec .wdgFeed s = .next t) : WdgMove .wdgFeed s t := by
  cases harmed : s.wdg.armed with
  | true =>
    rw [exec_wdgFeed_of_armed harmed] at h
    cases h
    exact .feed rfl
  | false =>
    rw [exec_wdgFeed_of_unarmed harmed] at h
    cases h
    exact .rest (.inl rfl)

/-- A tick that expires is a reset, not a move of the watchdog (R295). -/
theorem WdgMove.of_wdgTick (h : exec .wdgTick s = .next t) : (∃ c, t = systemReset c s) ∨ WdgMove .wdgTick s t := by
  cases h
  rcases watchdogTick_cases s with ⟨-, idle⟩ | ⟨harmed, hbelow, counted⟩ | ⟨-, -, expired⟩
  · rw [idle]; exact .inr (.rest (.inr rfl))
  · rw [counted]; exact .inr (.count rfl harmed hbelow)
  · exact .inl ⟨_, expired⟩

theorem HfMove.of_event {pc lr : Nat} {fsr : List Nat} (hi : i = .hfEnter pc lr fsr ∨ i = .errHardFault pc lr fsr)
    (h : hardFaultEvent pc lr fsr s = .next t) : HfMove i s t := by
  obtain ⟨hregs, rfl⟩ := of_ite_next h
  exact .enter hi hregs

theorem HfMove.of_hfCapture (h : exec .hfCapture s = .next t) : HfMove i s t := by
  obtain ⟨hplace, rfl⟩ := of_ite_next h
  exact .capture ((sequencerAt_iff ..).mp hplace).1

theorem HfMove.of_hfLog (h : exec .hfLog s = .next t) : HfMove i s t := by
  have logged : exec .hfLog s = execHfLog s := rfl
  rw [logged, execHfLog] at h
  split at h
  · next hplace =>
    obtain ⟨-, rfl⟩ := of_ite_next h
    exact .log ((sequencerAt_iff ..).mp hplace).1
  · cases h

end

/-- The inversion of `exec`: what any row that runs has done. -/
theorem exec_next {i : Instr} {s t : State} (h : exec i s = .next t) :
    (∃ c, t = systemReset c s) ∨ UnitMove (unitOf i) i s t := by
  cases i with
  | encFrame => cases h; exact .inr ⟨_, _, rfl⟩
  | encEscape => cases h; exact .inr ⟨s.tx, _, rfl⟩
  | crcBlock => cases h; exact .inr ⟨_, rfl⟩
  | crcUpdate => cases h; exact .inr ⟨_, rfl⟩
  | crcAppend => cases h; exact .inr ⟨_, rfl⟩
  | crcVerify => exact .inr ⟨_, (exec_crcVerify_next h).2⟩
  | decPush => cases h; exact .inr (DecMove.byte _)
  | decReset => cases h; exact .inr DecMove.clear
  | decIdleFlag => exact .inr (DecMove.of_cell push_flag_of_idle h)
  | decIdleOther => exact .inr (DecMove.of_cell (fun sel => push_of_idle sel.1 sel.2) h)
  | decInFrameFlagNonempty => exact .inr (DecMove.of_cell (fun sel => push_flag_of_nonempty sel.1 sel.2) h)
  | decInFrameFlagEmpty => exact .inr (DecMove.of_cell (fun sel => push_flag_of_empty sel.1 sel.2) h)
  | decInFrameEsc => exact .inr (DecMove.of_cell push_esc_of_inFrame h)
  | decInFrameData b =>
    refine .inr (DecMove.of_cell (fun sel => push_data_of_inFrame sel.1 ?_ ?_) h)
    · rintro rfl; cases sel.2
    · rintro rfl; cases sel.2
  | decEscapedNonFlag => exact .inr (DecMove.of_cell (fun sel => push_of_escaped sel.1 sel.2) h)
  | decEscapedFlag => exact .inr (DecMove.of_cell push_flag_of_escaped h)
  | wireFlag => cases h; exact .inr (DecMove.byte _)
  | wireEsc => cases h; exact .inr (DecMove.byte _)
  | wireData => cases h; exact .inr (DecMove.byte _)
  | pairEscFlag => cases h; exact .inr (DecMove.pair _ _)
  | pairEscEsc => cases h; exact .inr (DecMove.pair _ _)
  | pairEscAny => cases h; exact .inr (DecMove.pair _ _)
  | pairAbort => cases h; exact .inr (DecMove.pair _ _)
  | errTruncated => exact .inr (DecMove.of_error h)
  | errOverflow => exact .inr (DecMove.of_error h)
  | errCrcMismatch => exact .inr (DecMove.of_error h)
  | msgSend => exact .inr (MsgMove.send h)
  | msgRecv => exact .inr (MsgMove.receive h)
  | msgTick => cases h; exact .inr MsgMove.tick
  | msgHeader command id count index length data =>
    exact .inr (MsgMove.receive (p := headerBytes command id count index length ++ data) h)
  | cmdAck id data => exact .inr (MsgMove.dispatch (command := 0x0001) (id := id) (data := data) h)
  | cmdNak id data => exact .inr (MsgMove.dispatch (command := 0x0002) (id := id) (data := data) h)
  | cmdPing id data => exact .inr (MsgMove.dispatch (command := 0x0003) (id := id) (data := data) h)
  | cmdRaw id data => exact .inr (MsgMove.dispatch (command := 0x0004) (id := id) (data := data) h)
  | cmdUnknown command id data => exact .inr (MsgMove.dispatch (command := command) (id := id) (data := data) h)
  | errMalformedHeader => exact .inr (MsgMove.of_error (e := .malformedHeader) (p := []) h)
  | errFragmentOutOfOrder => exact .inr (MsgMove.of_error (e := .fragmentOutOfOrder) (p := straySecondFragment s) h)
  | errReassemblyBusy => exact .inr (MsgMove.of_error (e := .reassemblyBusy) (p := headerBytes 0 (s.ctx.id + 1) 2 0 0) h)
  | errUnknownCommand => exact .inr (MsgMove.of_error (e := .unknownCommand) (p := headerBytes 0 0 1 0 0) h)
  | flScan => obtain ⟨-, -, h⟩ := whenFlIdle_next h; cases h; exact .inr (FlMove.answer _)
  | flErase => obtain ⟨hphase, hop, h⟩ := whenFlIdle_next h; cases h; exact .inr (FlMove.beginErase hphase hop)
  | flWrite => exact .inr (FlMove.of_flWrite h)
  | flRead => exact .inr (FlMove.of_flRead h)
  | flBoot => exact .inr (FlMove.of_flBoot h)
  | flcUnlock => exact .inr (FlMove.of_flcUnlock h)
  | flcSelectErase =>
    rw [exec_flcSelectErase] at h
    obtain ⟨hphase, rfl⟩ := of_ite_next h
    exact .inr (FlMove.selectErase hphase)
  | flcStartErase =>
    rw [exec_flcStartErase] at h
    obtain ⟨⟨hphase, -⟩, rfl⟩ := of_ite_next h
    exact .inr (FlMove.startErase hphase)
  | flcCompleteErase =>
    rw [exec_flcCompleteErase] at h
    obtain ⟨hphase, rfl⟩ := of_ite_next h
    exact .inr (FlMove.completeErase rfl hphase)
  | flcLock => exact .inr (FlMove.of_flcLock h)
  | flcSelectProgram =>
    rw [exec_flcSelectProgram] at h
    obtain ⟨hphase, rfl⟩ := of_ite_next h
    exact .inr (FlMove.selectProgram hphase)
  | flcProgramUnit j =>
    rw [exec_flcProgramUnit] at h
    obtain ⟨⟨hphase, -, -, -, herr, hunit, hmore⟩, rfl⟩ := of_ite_next h
    exact .inr (FlMove.programUnit hphase herr hunit hmore)
  | flcCompleteUnit j =>
    rw [exec_flcCompleteUnit] at h
    obtain ⟨hphase, rfl⟩ := of_ite_next h
    exact .inr (FlMove.completeUnit rfl hphase)
  | flcVerify =>
    rw [exec_flcVerify] at h
    obtain ⟨⟨hphase, herr, -, -⟩, rfl⟩ := of_ite_next h
    exact .inr (FlMove.verify _ _ hphase herr)
  | errNotClean => exact .inr (FlMove.of_flWrite (whenRaised_next h).1)
  | errEraseFailed => exact .inr (FlMove.of_flcLock (whenRaised_next h).1)
  | errProgramFailed => exact .inr (FlMove.of_flcLock (whenRaised_next h).1)
  | wdgArm => exact .inr (WdgMove.of_wdgArm h)
  | wdgFeed => exact .inr (WdgMove.of_wdgFeed h)
  | wdgTick => exact WdgMove.of_wdgTick h
  | errWatchdogTimeout => exact .inl ⟨_, (execErrWatchdogTimeout_next h).2⟩
  | hfEnter => exact .inr (HfMove.of_event (.inl rfl) h)
  | errHardFault => exact .inr (HfMove.of_event (.inr rfl) h)
  | hfCapture => exact .inr (HfMove.of_hfCapture h)
  | hfLog => exact .inr (HfMove.of_hfLog h)
  | hfReset =>
    obtain ⟨-, rfl⟩ := of_ite_next h
    exact .inl ⟨_, rfl⟩
  | sysReset => exact .inl ⟨_, (execSysReset_next h).2⟩

/-! ## What a move leaves unchanged -/

section
variable {i : Instr} {s t : State}

theorem push_frame (b : Byte) (s : State) :
    ∃ (d : Dec) (r : Result) (out : List DecOut) (log : List LogEvent),
      push b s = { s with dec := d, ret := r, decOut := out, log := log } := by
  rcases push_cases b s with ⟨d, h, -⟩ | ⟨e, -, h⟩ | ⟨p, h⟩
  · exact ⟨d, _, s.decOut, s.log, h⟩
  · exact ⟨_, _, _, _, h⟩
  · exact ⟨_, _, _, s.log, h⟩

theorem DecMove.frame (m : DecMove s t) :
    ∃ (d : Dec) (r : Result) (out : List DecOut) (log : List LogEvent),
      t = { s with dec := d, ret := r, decOut := out, log := log } := by
  cases m with
  | byte b => exact push_frame b s
  | pair b0 b1 =>
    obtain ⟨d, r, out, log, first⟩ := push_frame b0 s
    rw [pushPair, first]
    exact push_frame b1 _
  | clear => exact ⟨_, s.ret, s.decOut, s.log, rfl⟩

theorem MsgMove.frame (m : MsgMove s t) :
    ∃ (c : Ctx) (tx : Bytes) (r : Result) (log : List LogEvent), t = { s with ctx := c, tx := tx, ret := r, log := log } := by
  cases m with
  | send h => exact ⟨s.ctx, _, _, s.log, (sendMessage_next h).2⟩
  | dispatch h =>
    obtain ⟨tx, r, log, rfl⟩ := dispatch_next h
    exact ⟨s.ctx, tx, r, log, rfl⟩
  | receive h => exact receive_next h
  | tick => exact ⟨_, s.tx, s.ret, s.log, rfl⟩

theorem FlMove.frame (m : FlMove i s t) :
    ∃ (f : Fl) (r : Result) (log : List LogEvent) (n : Nat), t = { s with fl := f, ret := r, log := log, draws := n } := by
  cases m <;> exact ⟨_, _, _, _, rfl⟩

theorem WdgMove.frame (m : WdgMove i s t) : ∃ w : Wdg, t = { s with wdg := w } := by
  cases m <;> exact ⟨_, rfl⟩

theorem HfMove.frame (m : HfMove i s t) : ∃ (h : Hf) (log : List LogEvent), t = { s with hf := h, log := log } := by
  cases m with
  | enter =>
    rcases enterHardFault_cases _ s with ⟨-, entered⟩ | ⟨-, stopped⟩
    · exact ⟨_, s.log, entered⟩
    · exact ⟨_, s.log, stopped⟩
  | capture => exact ⟨_, s.log, rfl⟩
  | log => exact ⟨_, _, rfl⟩

end

/-- A reset is told by the cause it emits. -/
theorem resets_systemReset (c : Cause) (s : State) : (systemReset c s).resets = s.resets ++ [c] := by rw [systemReset_eq]

theorem cfg_systemReset (c : Cause) (s : State) : (systemReset c s).cfg = s.cfg := by rw [systemReset_eq]

theorem resets_systemReset_ne (c : Cause) (s : State) : (systemReset c s).resets ≠ s.resets := by
  rw [resets_systemReset]
  simp

/-- Settles O58: a move's frame names the unit's own fields and no other. -/
theorem unitsOwnTheirState : Obligations.UnitsOwnTheirState := by
  intro i s t h
  rcases exec_next h with ⟨c, rfl⟩ | m
  · exact ⟨cfg_systemReset c s, fun same => absurd same (resets_systemReset_ne c s)⟩
  cases hunit : unitOf i <;> rw [hunit] at m
  case enc =>
    obtain ⟨tx, r, rfl⟩ := m
    exact ⟨rfl, fun _ => ⟨absurd rfl, absurd rfl, absurd rfl, absurd rfl, absurd rfl, fun _ => .inl rfl, rfl, rfl, rfl⟩⟩
  case dec =>
    obtain ⟨d, r, out, log, rfl⟩ := DecMove.frame m
    exact ⟨rfl, fun _ => ⟨fun _ => rfl, absurd rfl, absurd rfl, absurd rfl, absurd rfl, absurd rfl, rfl, rfl, rfl⟩⟩
  case crc =>
    obtain ⟨r, rfl⟩ := m
    exact ⟨rfl, fun _ => ⟨absurd rfl, absurd rfl, absurd rfl, absurd rfl, absurd rfl, absurd rfl, rfl, rfl, rfl⟩⟩
  case msg =>
    obtain ⟨c, tx, r, log, rfl⟩ := MsgMove.frame m
    exact ⟨rfl, fun _ => ⟨absurd rfl, fun _ => rfl, absurd rfl, absurd rfl, absurd rfl, fun _ => .inr rfl, rfl, rfl, rfl⟩⟩
  case fl =>
    obtain ⟨f, r, log, n, rfl⟩ := FlMove.frame m
    exact ⟨rfl, fun _ => ⟨absurd rfl, absurd rfl, fun _ => rfl, absurd rfl, absurd rfl, absurd rfl, rfl, rfl, rfl⟩⟩
  case wdg =>
    obtain ⟨w, rfl⟩ := WdgMove.frame m
    exact ⟨rfl, fun _ => ⟨absurd rfl, absurd rfl, absurd rfl, fun _ => rfl, absurd rfl, absurd rfl, rfl, rfl, rfl⟩⟩
  case hf =>
    obtain ⟨f, log, rfl⟩ := HfMove.frame m
    exact ⟨rfl, fun _ => ⟨absurd rfl, absurd rfl, absurd rfl, absurd rfl, fun _ => rfl, absurd rfl, rfl, rfl, rfl⟩⟩
  case sys => exact m.elim

/-! ## The same, unit by unit -/

section
variable {i : Instr} {s t : State}

/-- No move emits a reset. -/
theorem UnitMove.resets_eq {u : UnitName} (m : UnitMove u i s t) : t.resets = s.resets := by
  cases u with
  | enc => obtain ⟨_, _, rfl⟩ := m; rfl
  | dec => obtain ⟨_, _, _, _, rfl⟩ := DecMove.frame m; rfl
  | crc => obtain ⟨_, rfl⟩ := m; rfl
  | msg => obtain ⟨_, _, _, _, rfl⟩ := MsgMove.frame m; rfl
  | fl => obtain ⟨_, _, _, _, rfl⟩ := FlMove.frame m; rfl
  | wdg => obtain ⟨_, rfl⟩ := WdgMove.frame m; rfl
  | hf => obtain ⟨_, _, rfl⟩ := HfMove.frame m; rfl
  | sys => exact m.elim

/-- An instruction resets the block, or keeps the units that are not its own and makes a move of its own unit. -/
theorem exec_unit_cases (h : exec i s = .next t) :
    (∃ c, t = systemReset c s) ∨
      (t.dec = s.dec ∨ DecMove s t) ∧ (t.ctx = s.ctx ∨ MsgMove s t) ∧ (t.fl = s.fl ∨ FlMove i s t) ∧
      (t.wdg = s.wdg ∨ WdgMove i s t) ∧ (t.hf = s.hf ∨ HfMove i s t) := by
  rcases exec_next h with reset | m
  · exact .inl reset
  obtain ⟨hdec, hctx, hfl, hwdg, hhf, -⟩ := (unitsOwnTheirState i s t h).2 m.resets_eq
  have own {p : Prop} {u : UnitName} (q : Prop) (hp : ¬p → unitOf i = u) (hq : UnitMove u i s t → q) : p ∨ q := by
    by_cases kept : p
    · exact .inl kept
    · exact .inr (hq (hp kept ▸ m))
  exact .inr ⟨own _ hdec id, own _ hctx id, own _ hfl id, own _ hwdg id, own _ hhf id⟩

end

/-- Without a reset, another unit's row leaves the flash unit as it was. -/
theorem exec_fl_of_unitOf_ne {i : Instr} {s t : State} (h : exec i s = .next t) (hresets : t.resets = s.resets)
    (hunit : unitOf i ≠ .fl) : t.fl = s.fl := by
  obtain ⟨-, -, flOwned, -⟩ := (unitsOwnTheirState i s t h).2 hresets
  by_contra changed
  exact hunit (flOwned changed)

end Sys2Proof.Machine
end

section
/-! What every step keeps: the invariants of the units, read off the moves. A step runs one instruction (`step_next`), on a state that
differs only in the port, the draw count and SW's place in the boot sequence. -/

namespace Sys2Proof.Machine

/-! ## The exception level and the region -/

/-- Settles O57: only the trap entry and a reset move the sequencer to or from its idle phase. -/
theorem exceptionLevelEndsOnlyInReset : Obligations.ExceptionLevelEndsOnlyInReset := by
  intro i s t h
  rcases exec_unit_cases h with ⟨c, rfl⟩ | ⟨-, -, -, -, kept | m⟩
  · exact ⟨fun _ _ => ⟨c, resets_systemReset c s⟩, fun _ left => absurd (by rw [systemReset_eq]; rfl) left⟩
  · rw [kept]
    exact ⟨fun running idle => absurd idle running, fun idle left => absurd idle left⟩
  · cases m with
    | enter hi =>
      refine ⟨fun running idle => ?_, fun _ _ => ⟨_, _, _, hi⟩⟩
      rw [enterHardFault_of_running running] at idle
      exact absurd idle running
    | capture hphase => exact ⟨fun _ => nofun, fun idle _ => nomatch hphase.symm.trans idle⟩
    | log hphase => exact ⟨fun _ => nofun, fun idle _ => nomatch hphase.symm.trans idle⟩

/-- A move of the flash unit keeps the region, or is a completion of what the controller is busy with (R67). -/
theorem FlMove.mem_eq_or {i : Instr} {s t : State} (m : FlMove i s t) :
    t.fl.mem = s.fl.mem ∨ (s.fl.phase = .eBusy ∧ i = .flcCompleteErase) ∨ ∃ j, s.fl.phase = .wBusy j ∧ i = .flcCompleteUnit j := by
  cases m with
  | completeErase hi hphase => exact .inr (.inl ⟨hphase, hi⟩)
  | completeUnit hi hphase => exact .inr (.inr ⟨_, hphase, hi⟩)
  | unlock _ _ hkeys =>
    obtain ⟨k, rfl⟩ := unlockSequence_some hkeys
    exact .inl rfl
  | _ => exact .inl rfl

/-- Settles O47: a reset draws bytes only where it cuts what the controller is busy with. -/
theorem regionChangesOnlyWhileBusy : Obligations.RegionChangesOnlyWhileBusy := by
  intro i s t a h changed
  rcases exec_unit_cases h with ⟨c, rfl⟩ | ⟨-, -, kept | m, -⟩
  · have cause : ∃ c', (systemReset c s).resets = s.resets ++ [c'] := ⟨c, resets_systemReset c s⟩
    rcases cutFlash_cases s with uncut | ⟨hphase, -⟩ | ⟨j, hphase, -⟩
    · rw [systemReset_eq, uncut] at changed
      exact absurd rfl changed
    · exact .inl ⟨hphase, .inr cause⟩
    · exact .inr ⟨j, hphase, .inr cause⟩
  · exact absurd (by rw [kept]) changed
  · rcases m.mem_eq_or with kept | ⟨hphase, hi⟩ | ⟨j, hphase, hi⟩
    · exact absurd (by rw [kept]) changed
    · exact .inl ⟨hphase, .inl hi⟩
    · exact .inr ⟨j, hphase, .inl hi⟩

/-! ## The decoder -/

theorem decSafe_push {s : State} (b : Byte) (h : DecSafe s) : DecSafe (push b s) := by
  rcases push_cases b s with ⟨d, moved, keeps⟩ | ⟨e, -, raised⟩ | ⟨p, delivered⟩
  · rw [moved]; exact keeps h
  · rw [raised]; exact ⟨Nat.zero_le _, fun _ => rfl⟩
  · rw [delivered]; exact ⟨Nat.zero_le _, fun _ => rfl⟩

theorem DecMove.decSafe {s t : State} (m : DecMove s t) (h : DecSafe s) : DecSafe t := by
  cases m with
  | byte b => exact decSafe_push b h
  | pair b0 b1 => exact decSafe_push b1 (decSafe_push b0 h)
  | clear => exact ⟨Nat.zero_le _, fun _ => rfl⟩

theorem decSafe_of_eq {s t : State} (hcfg : t.cfg = s.cfg) (hdec : t.dec = s.dec) (h : DecSafe s) : DecSafe t := by
  unfold DecSafe at h ⊢
  rwa [hcfg, hdec]

/-- An instruction keeps it: a reset and a decoder error empty the accumulator, and an append finds room. -/
theorem exec_decSafe {i : Instr} {s t : State} (h : exec i s = .next t) (hs : DecSafe s) : DecSafe t := by
  rcases exec_unit_cases h with ⟨c, rfl⟩ | ⟨kept | m, -⟩
  · rw [systemReset_eq]; exact ⟨Nat.zero_le _, fun _ => rfl⟩
  · exact decSafe_of_eq (unitsOwnTheirState i s t h).1 kept hs
  · exact m.decSafe hs

/-- Settles O16: the port, the draws and SW's place are no part of it. -/
theorem stepKeepsTheDecoderSafe : Obligations.StepKeepsTheDecoderSafe := by
  intro s t hs h
  obtain ⟨i, p, n, hexec, -⟩ := step_next h
  exact exec_decSafe hexec hs

/-! ## The reassembly context -/

theorem ctxSafe_of_eq {s t : State} (hcfg : t.cfg = s.cfg) (hctx : t.ctx = s.ctx) (h : CtxSafe s) : CtxSafe t := by
  unfold CtxSafe at h ⊢
  rwa [hcfg, hctx]

/-- A released context has nothing to keep. -/
theorem ctxSafe_of_inactive {s : State} (h : s.ctx.active = false) : CtxSafe s := fun active => nomatch h.symm.trans active

/-- A fragment of at most 256 bytes that does not complete the message (R217). -/
theorem ctxSafe_extended {s : State} {data : Bytes} (hactive : s.ctx.active = true) (h : CtxSafe s) (hdata : data.length ≤ 256)
    (hincomplete : contextComplete (extended s.ctx data) = false) : CtxSafe (s.setCtx (extended s.ctx data)) := by
  obtain ⟨hcount, hnext, hbuf, hroom⟩ := h hactive
  have no_wrap : (s.ctx.nextIdx + 1).toNat = s.ctx.nextIdx.toNat + 1 := by bv_omega
  have not_last : s.ctx.nextIdx.toNat + 1 ≠ s.ctx.count.toNat := by
    rwa [← Bool.not_eq_true, contextComplete_extended_iff hnext] at hincomplete
  refine fun _ => ⟨hcount, ?_, ?_, hroom⟩
  · show (s.ctx.nextIdx + 1).toNat < s.ctx.count.toNat
    omega
  · show (s.ctx.buf ++ data).length ≤ fragMax * (s.ctx.nextIdx + 1).toNat
    rw [no_wrap, List.length_append]
    unfold fragMax at hbuf ⊢
    omega

theorem ctxSafe_matchFragment {d : Header} {s t : State} (hactive : s.ctx.active = true) (hs : CtxSafe s)
    (hdata : d.data.length ≤ 256) (h : matchFragment d s = .next t) : CtxSafe t := by
  rcases matchFragment_next h with rfl | ⟨-, -, hstore⟩
  · exact ctxSafe_of_inactive rfl
  · rcases storeFragment_next hstore with ⟨hincomplete, rfl⟩ | ⟨-, tx, r, log, rfl⟩
    · exact ctxSafe_extended hactive hs hdata hincomplete
    · exact ctxSafe_of_inactive rfl

/-- The context of a first fragment, where the buffer holds the message (R213, R225). -/
theorem ctxSafe_allocated {d : Header} {s : State} (hcount : 2 ≤ d.count.toNat) (hroom : d.count.toNat * 256 ≤ s.cfg.maxMessage) :
    CtxSafe (s.setCtx (allocated d)) :=
  fun _ => ⟨hcount, Nat.lt_of_lt_of_le Nat.zero_lt_two hcount, Nat.zero_le _, hroom⟩

theorem ctxSafe_acceptFragment {d : Header} {s t : State} (hs : CtxSafe s) (hdata : d.data.length ≤ 256)
    (hindex : d.index.toNat < d.count.toNat) (h : acceptFragment d s = .next t) : CtxSafe t := by
  by_cases hsingle : d.count = 1
  · rw [acceptFragment, if_pos hsingle] at h
    obtain ⟨tx, r, log, rfl⟩ := dispatch_next h
    exact hs
  have hcount : 2 ≤ d.count.toNat := by
    have : d.count.toNat ≠ 1 := fun one => hsingle (BitVec.eq_of_toNat_eq one)
    omega
  cases hactive : s.ctx.active with
  | false =>
    rw [acceptFragment_of_inactive hactive hcount] at h
    split at h
    · cases h; exact hs
    split at h
    · cases h; exact hs
    · next hroom => exact ctxSafe_matchFragment rfl (ctxSafe_allocated hcount (Nat.not_lt.mp hroom)) hdata h
  | true =>
    rw [acceptFragment_of_active hactive hcount] at h
    split at h
    · cases h; exact hs
    · exact ctxSafe_matchFragment hactive hs hdata h

theorem ctxSafe_receive {p : Bytes} {s t : State} (hs : CtxSafe s) (h : receive p s = .next t) : CtxSafe t := by
  unfold receive at h
  split at h
  · cases h; exact hs
  · next d _ =>
    split at h
    · next hvalid =>
      simp only [headerValid, Bool.and_eq_true, decide_eq_true_eq] at hvalid
      obtain ⟨⟨hmax, hlength⟩, hindex⟩ := hvalid
      exact ctxSafe_acceptFragment hs (hlength ▸ hmax) hindex h
    · cases h; exact hs

theorem MsgMove.ctxSafe {s t : State} (m : MsgMove s t) (hs : CtxSafe s) : CtxSafe t := by
  cases m with
  | send h => rw [(sendMessage_next h).2]; exact hs
  | dispatch h => obtain ⟨tx, r, log, rfl⟩ := dispatch_next h; exact hs
  | receive h => exact ctxSafe_receive hs h
  | tick =>
    cases hactive : s.ctx.active with
    | false => rw [ctxTick_of_inactive s.cfg hactive]; exact hs
    | true => rw [ctxTick_of_active s.cfg hactive]; exact fun _ => hs hactive

theorem exec_ctxSafe {i : Instr} {s t : State} (h : exec i s = .next t) (hs : CtxSafe s) : CtxSafe t := by
  rcases exec_unit_cases h with ⟨c, rfl⟩ | ⟨-, kept | m, -⟩
  · rw [systemReset_eq]; exact ctxSafe_of_inactive rfl
  · exact ctxSafe_of_eq (unitsOwnTheirState i s t h).1 kept hs
  · exact m.ctxSafe hs

/-- Settles O37: what the step runs keeps it, and the rest of the step does not touch it. -/
theorem stepKeepsTheContextSafe : Obligations.StepKeepsTheContextSafe := by
  intro s t hs h
  obtain ⟨i, p, n, hexec, -⟩ := step_next h
  exact exec_ctxSafe hexec hs

/-! ## The watchdog and the fault record -/

theorem HfMove.hfSafe {i : Instr} {s t : State} (m : HfMove i s t) (hs : HfSafe s) : HfSafe t := by
  obtain ⟨hinput, hrecord, hstuck, hvalid⟩ := hs
  cases m with
  | enter _ hregs =>
    rcases enterHardFault_cases _ s with ⟨-, entered⟩ | ⟨running, stopped⟩
    · rw [entered]; exact ⟨fun _ => hregs, fun h => h.elim nofun nofun, fun _ => nofun, hvalid⟩
    · rw [stopped]; exact ⟨hinput, hrecord, fun _ => running, hvalid⟩
  | capture hphase =>
    have regs := hinput (by simp [hphase])
    exact ⟨fun _ => regs, fun _ => ⟨rfl, rfl⟩, fun _ => nofun, fun _ => regs⟩
  | log hphase => exact ⟨fun _ => hinput (by simp [hphase]), fun _ => hrecord (.inl hphase), fun _ => nofun, hvalid⟩

/-- A record that a reset keeps valid is the one there was (R313). -/
theorem keptRecord_valid {p : Params} {c : Cause} {r : FaultRecord} (h : (keptRecord p c r).valid = true) : keptRecord p c r = r := by
  unfold keptRecord at h ⊢
  split at h
  · cases h
  · next kept => exact if_neg kept

theorem hfSafe_systemReset (c : Cause) {s : State} (hs : HfSafe s) : HfSafe (systemReset c s) := by
  obtain ⟨-, -, -, hvalid⟩ := hs
  rw [systemReset_eq]
  refine ⟨absurd rfl, fun h => h.elim nofun nofun, nofun, fun kept => ?_⟩
  have same : keptRecord s.cfg c s.hf.record = s.hf.record := keptRecord_valid kept
  show faultRegsOk s.cfg (keptRecord s.cfg c s.hf.record).regs.pc (keptRecord s.cfg c s.hf.record).regs.lr
    (keptRecord s.cfg c s.hf.record).regs.fsr = true
  rw [same]
  exact hvalid (same ▸ kept)

theorem exec_hfSafe {i : Instr} {s t : State} (h : exec i s = .next t) (hs : HfSafe s) : HfSafe t := by
  rcases exec_unit_cases h with ⟨c, rfl⟩ | ⟨-, -, -, -, kept | m⟩
  · exact hfSafe_systemReset c hs
  · unfold HfSafe at hs ⊢
    rwa [(unitsOwnTheirState i s t h).1, kept]
  · exact m.hfSafe hs

/-- SW leaves the start of its boot sequence by the arming alone (R375). -/
theorem bootAfter_eq_arm_iff {i : Instr} (h : ∀ n, i ≠ .wdgArm n) (b : BootStep) : bootAfter b i = .arm ↔ b = .arm := by
  unfold bootAfter
  split
  · exact absurd rfl (h _)
  · exact ⟨nofun, nofun⟩
  · exact Iff.rfl

/-- An instruction SW issues at its place keeps the watchdog's invariant, SW's place moved by it. -/
theorem exec_wdgSafe {i : Instr} {s u t : State} (h : exec i u = .next t) (hs : WdgSafe s) (hwdg : u.wdg = s.wdg)
    (hboot : u.boot = bootAfter s.boot i) : WdgSafe t := by
  obtain ⟨hbelow, hrest, harm⟩ := hs
  rw [← hwdg] at hbelow hrest harm
  have place (hi : ∀ n, i ≠ .wdgArm n) : u.boot = .arm ↔ u.wdg.armed = false := by
    rw [hboot, bootAfter_eq_arm_iff hi, harm]
  rcases exec_next h with ⟨c, rfl⟩ | m
  · rw [systemReset_eq]; exact ⟨nofun, fun _ => rfl, ⟨fun _ => rfl, fun _ => rfl⟩⟩
  obtain ⟨-, -, -, wdgOwned, -, -, -, -, boot_eq⟩ := (unitsOwnTheirState i u t h).2 m.resets_eq
  by_cases hunit : unitOf i = .wdg
  · rw [hunit] at m
    cases m with
    | arm hi hunarmed hpos =>
      have left : bootAfter s.boot i = .store := by rw [harm.mpr hunarmed, hi]; rfl
      exact ⟨fun _ => hpos, nofun, ⟨fun start => (nomatch left.symm.trans (hboot.symm.trans start)), nofun⟩⟩
    | feed hi =>
      exact ⟨fun harmed => Nat.lt_of_le_of_lt (Nat.zero_le _) (hbelow harmed), fun _ => rfl, place (by simp [hi])⟩
    | count hi harmed hcnt => exact ⟨fun _ => hcnt, fun unarmed => (nomatch harmed.symm.trans unarmed), place (by simp [hi])⟩
    | rest hi => exact ⟨hbelow, hrest, place (by rcases hi with rfl | rfl <;> nofun)⟩
  · have kept : t.wdg = u.wdg := by
      by_contra changed
      exact hunit (wdgOwned changed)
    have not_arm (n : Nat) : i ≠ .wdgArm n := by rintro rfl; exact hunit rfl
    unfold WdgSafe
    rw [kept, boot_eq]
    exact ⟨hbelow, hrest, place not_arm⟩

/-- Settles O60: the arming moves SW's place and the watchdog together, and nothing else moves either. -/
theorem stepKeepsTheMonitorSafe : Obligations.StepKeepsTheMonitorSafe := by
  rintro s t ⟨hwdg, hhf⟩ h
  obtain ⟨i, p, n, hexec, -⟩ := step_next h
  exact ⟨exec_wdgSafe hexec hwdg rfl rfl, exec_hfSafe hexec hhf⟩

end Sys2Proof.Machine
end

section
/-! The flash unit through a whole write or erase: what every step keeps of it (44_flash.md). -/

namespace Sys2Proof.Machine

/-! ## The region stays canonical and inside its size -/

/-- The unit in progress lies inside the write's data, and so inside the region (R259, R262). -/
theorem unit_inside {s : State} {j : Nat} (hs : FlSafe s) (hphase : s.fl.phase = .wBusy j) :
    (j + 1) * s.cfg.progUnit ≤ s.fl.data.length ∧ unitOffset s j + s.cfg.progUnit ≤ s.cfg.flashSize := by
  obtain ⟨-, hfields, -, hoperands⟩ := hs
  simp only [phaseFields, hphase] at hfields
  obtain ⟨-, -, -, -, hop, -, hmore⟩ := hfields
  obtain ⟨hregion, -⟩ := hoperands hop
  have hdata : (j + 1) * s.cfg.progUnit ≤ s.fl.data.length := Nat.mul_le_of_le_div _ _ _ hmore
  refine ⟨hdata, ?_⟩
  rw [Nat.succ_mul] at hdata
  unfold unitOffset
  omega

theorem erasedMem_bound {s : State} (h : MemSafe s) : ∀ c ∈ erasedMem s, c.1 < s.cfg.flashSize := by
  unfold erasedMem
  split
  · exact memDraw_bound h.2 (Nat.le_of_eq (Nat.zero_add _))
  · exact nofun

theorem programmedMem_bound {s : State} {j : Nat} (hs : FlSafe s) (hphase : s.fl.phase = .wBusy j) :
    ∀ c ∈ programmedMem s j, c.1 < s.cfg.flashSize := by
  obtain ⟨hdata, hregion⟩ := unit_inside hs hphase
  unfold programmedMem
  split
  · exact memDraw_bound hs.1.2 hregion
  · exact memProg_bound hs.1.2 (by rw [length_unitData hdata]; exact hregion)

/-- What a reset draws lies inside the region (R270). -/
theorem cutFlash_bound {s : State} (hs : FlSafe s) : ∀ c ∈ (cutFlash s).fl.mem, c.1 < s.cfg.flashSize := by
  rcases cutFlash_cases s with uncut | ⟨-, cut⟩ | ⟨j, hphase, cut⟩
  · rw [uncut]; exact hs.1.2
  · rw [cut]; exact memDraw_bound hs.1.2 (Nat.le_of_eq (Nat.zero_add _))
  · rw [cut]; exact memDraw_bound hs.1.2 (unit_inside hs hphase).2

/-! ## Outside a write -/

/-- Where no write is in progress the unit need only be consistent. -/
theorem writeProgress_of_not_write {s : State} (hmem : MemSafe s) (hfields : phaseFields s.cfg s.fl) (hkey : s.fl.keystep = 0)
    (hop : s.fl.op ≠ .write) : WriteProgress s :=
  ⟨⟨hmem, hfields, hkey, fun write => absurd write hop⟩, fun _ write => absurd write hop⟩

theorem writeProgress_systemReset (c : Cause) {s : State} (h : FlSafe s) : WriteProgress (systemReset c s) := by
  rw [systemReset_eq]
  exact writeProgress_of_not_write ⟨cutFlash_wf h.1.1, cutFlash_bound h⟩ ⟨rfl, rfl, rfl, rfl, rfl⟩ rfl nofun

/-- WriteProgress is about the flash unit and the parameters alone. -/
theorem writeProgress_of_eq {s t : State} (hcfg : t.cfg = s.cfg) (hfl : t.fl = s.fl) (h : WriteProgress s) : WriteProgress t := by
  unfold WriteProgress FlSafe MemSafe at h ⊢
  rwa [hcfg, hfl]

/-! ## The phases of an erase -/

section
variable {s : State}

theorem writeProgress_beginErase (h : WriteProgress s) (hphase : s.fl.phase = .ready) : WriteProgress (beginErase s) := by
  obtain ⟨⟨hmem, hfields, hkey, -⟩, -⟩ := h
  simp only [phaseFields, hphase] at hfields
  refine writeProgress_of_not_write hmem ?_ hkey nofun
  simp only [phaseFields, beginErase, State.setFl_fl, hphase]
  exact hfields

theorem writeProgress_selectErase (h : WriteProgress s) (hphase : s.fl.phase = .eUnlocked) :
    WriteProgress (s.setFl { s.fl with mode := .sectorErase, sector := s.cfg.flashSector, phase := .eSelected }) := by
  obtain ⟨⟨hmem, hfields, hkey, -⟩, -⟩ := h
  simp only [phaseFields, hphase] at hfields
  obtain ⟨hlocked, -, hbusy, hop⟩ := hfields
  exact writeProgress_of_not_write hmem ⟨hlocked, rfl, rfl, hbusy, hop⟩ hkey (by simp [hop])

theorem writeProgress_startErase (h : WriteProgress s) (hphase : s.fl.phase = .eSelected) :
    WriteProgress (s.setFl { s.fl with busy := true, complete := false, err := false, phase := .eBusy }) := by
  obtain ⟨⟨hmem, hfields, hkey, -⟩, -⟩ := h
  simp only [phaseFields, hphase] at hfields
  obtain ⟨hlocked, hmode, hsector, -, hop⟩ := hfields
  exact writeProgress_of_not_write hmem ⟨hlocked, hmode, hsector, rfl, rfl, rfl, hop⟩ hkey (by simp [hop])

theorem writeProgress_completeErase (h : WriteProgress s) (hphase : s.fl.phase = .eBusy) :
    WriteProgress (s.setFl { s.fl with
      mem := erasedMem s, busy := false, complete := true, err := s.fl.err || Config.drawFail s.draws, phase := .eDone }).countDraw := by
  obtain ⟨⟨hmem, hfields, hkey, -⟩, -⟩ := h
  simp only [phaseFields, hphase] at hfields
  obtain ⟨hlocked, hmode, hsector, -, -, -, hop⟩ := hfields
  exact writeProgress_of_not_write ⟨erasedMem_wf hmem.1, erasedMem_bound hmem⟩ ⟨hlocked, hmode, hsector, rfl, rfl, hop⟩ hkey
    (by simp [hop])

/-- The lock ends an erase and a write alike (R256). -/
theorem writeProgress_lock (h : WriteProgress s) (r : Result) (log : List LogEvent) :
    WriteProgress { s with fl := lockedFl s.fl, ret := r, log := log } := by
  obtain ⟨⟨hmem, -, hkey, -⟩, -⟩ := h
  exact writeProgress_of_not_write hmem ⟨rfl, rfl, rfl, rfl, rfl⟩ hkey nofun

/-! ## The phases of a write -/

/-- A write begins on a Clean scan: with the scan over the region, nothing is programmed yet (R258, R240). -/
theorem writeProgress_beginWrite {offset : Nat} {data : Bytes} (h : WriteProgress s) (hphase : s.fl.phase = .ready)
    (hregion : offset + data.length ≤ s.cfg.flashSize)
    (hunits : offset % s.cfg.progUnit = 0 ∧ data.length % s.cfg.progUnit = 0) (hclean : regionDirty s = false) :
    WriteProgress (beginWrite offset data s) := by
  obtain ⟨⟨hmem, hfields, hkey, -⟩, -⟩ := h
  simp only [phaseFields, hphase] at hfields
  refine ⟨⟨hmem, ?_, hkey, fun _ => ⟨hregion, hunits.1, hunits.2, fun _ => rfl⟩⟩, fun hscan _ _ a ha => ?_⟩
  · simp only [phaseFields, beginWrite, State.setFl_fl, hphase]
    exact hfields
  · have erased : memGet s.fl.mem a = erasedByte := by
      by_contra programmed
      have dirty : regionDirty s = true := (scanDirty_iff ..).mpr ⟨a, Nat.lt_of_lt_of_eq ha hscan.symm, programmed⟩
      exact nomatch hclean.symm.trans dirty
    have none_done : ¬(offset ≤ a ∧ a < offset + 0 * s.cfg.progUnit) := by omega
    exact erased.trans (if_neg none_done).symm

theorem writeProgress_unlock {f : Fl} (h : WriteProgress s) (hphase : s.fl.phase = .ready) (hop : s.fl.op ≠ .none)
    (hkeys : unlockSequence s.cfg s.fl = some f) : WriteProgress (s.setFl { f with phase := unlockedPhase f.op }) := by
  obtain ⟨⟨hmem, hfields, hkey, hoperands⟩, hprogress⟩ := h
  rw [unlockSequence_eq s.cfg hkey] at hkeys
  cases hkeys
  simp only [phaseFields, hphase] at hfields
  obtain ⟨-, hmode, hbusy, -, herr⟩ := hfields
  cases hop' : s.fl.op with
  | none => exact absurd hop' hop
  | erase =>
    refine writeProgress_of_not_write hmem ?_ rfl nofun
    simp only [phaseFields, State.setFl_fl, unlockedPhase, reduceCtorEq, if_false]
    exact ⟨trivial, hmode, hbusy, trivial⟩
  | write =>
    obtain ⟨hregion, hoffset, hlength, hunit⟩ := hoperands hop'
    refine ⟨⟨hmem, ?_, rfl, fun _ => ⟨hregion, hoffset, hlength, fun _ => hunit hphase⟩⟩, fun hscan _ _ => hprogress hscan hop' herr⟩
    simp only [phaseFields, State.setFl_fl, unlockedPhase, if_true]
    exact ⟨trivial, hmode, hbusy, herr, hunit hphase, trivial⟩

theorem writeProgress_selectProgram (h : WriteProgress s) (hphase : s.fl.phase = .wUnlocked) :
    WriteProgress (s.setFl { s.fl with mode := .program, err := false, phase := .wMode }) := by
  obtain ⟨⟨hmem, hfields, hkey, hoperands⟩, hprogress⟩ := h
  simp only [phaseFields, hphase] at hfields
  obtain ⟨hlocked, -, hbusy, herr, -, hop⟩ := hfields
  obtain ⟨hregion, hoffset, hlength, -⟩ := hoperands hop
  exact ⟨⟨hmem, ⟨hlocked, rfl, hbusy, hop⟩, hkey, fun _ => ⟨hregion, hoffset, hlength, nofun⟩⟩,
    fun hscan _ _ => hprogress hscan hop herr⟩

theorem writeProgress_programUnit {j : Nat} (h : WriteProgress s) (hphase : s.fl.phase = .wMode) (herr : s.fl.err = false)
    (hunit : s.fl.unit = j) (hmore : j < s.fl.data.length / s.cfg.progUnit) :
    WriteProgress (s.setFl { s.fl with busy := true, phase := .wBusy j }) := by
  obtain ⟨⟨hmem, hfields, hkey, hoperands⟩, hprogress⟩ := h
  simp only [phaseFields, hphase] at hfields
  obtain ⟨hlocked, hmode, -, hop⟩ := hfields
  obtain ⟨hregion, hoffset, hlength, -⟩ := hoperands hop
  exact ⟨⟨hmem, ⟨hlocked, hmode, rfl, herr, hop, hunit, hmore⟩, hkey, fun _ => ⟨hregion, hoffset, hlength, nofun⟩⟩, hprogress⟩

theorem writeProgress_verify (failed : Bool) (r : Result) (h : WriteProgress s) (hphase : s.fl.phase = .wMode)
    (herr : s.fl.err = false) : WriteProgress ((s.setFl { s.fl with phase := .wVerify, failed := failed }).setRet r) := by
  obtain ⟨⟨hmem, hfields, hkey, hoperands⟩, hprogress⟩ := h
  simp only [phaseFields, hphase] at hfields
  obtain ⟨hlocked, hmode, hbusy, hop⟩ := hfields
  obtain ⟨hregion, hoffset, hlength, -⟩ := hoperands hop
  exact ⟨⟨hmem, ⟨hlocked, hmode, hbusy, herr, hop⟩, hkey, fun _ => ⟨hregion, hoffset, hlength, nofun⟩⟩, hprogress⟩

/-- An erased byte takes the data programmed onto it (R262). -/
theorem erasedByte_and (v : Byte) : erasedByte &&& v = v := BitVec.allOnes_and

/-- A unit completed without an error programs its own bytes, which were erased: the units done now include it (R262, R263). -/
theorem memGet_programmedMem_of_progress {j : Nat} (hwf : s.fl.mem.wf) (hdata : (j + 1) * s.cfg.progUnit ≤ s.fl.data.length)
    (hfail : Config.drawFail s.draws = false) {a : Nat}
    (hbefore : memGet s.fl.mem a =
      if s.fl.offset ≤ a ∧ a < s.fl.offset + j * s.cfg.progUnit then s.fl.data.getD (a - s.fl.offset) 0 else erasedByte) :
    memGet (programmedMem s j) a =
      if s.fl.offset ≤ a ∧ a < s.fl.offset + (j + 1) * s.cfg.progUnit then s.fl.data.getD (a - s.fl.offset) 0 else erasedByte := by
  rw [memGet_programmedMem hwf hdata, hfail, hbefore, Nat.succ_mul]
  unfold unitOffset
  split
  · next inUnit =>
    have not_done : ¬(s.fl.offset ≤ a ∧ a < s.fl.offset + j * s.cfg.progUnit) := by omega
    have done_now : s.fl.offset ≤ a ∧ a < s.fl.offset + (j * s.cfg.progUnit + s.cfg.progUnit) := by omega
    rw [if_neg Bool.false_ne_true, if_neg not_done, if_pos done_now, erasedByte_and]
  · next outside =>
    have same : s.fl.offset ≤ a ∧ a < s.fl.offset + (j * s.cfg.progUnit + s.cfg.progUnit) ↔
        s.fl.offset ≤ a ∧ a < s.fl.offset + j * s.cfg.progUnit := by omega
    simp only [same]

theorem writeProgress_completeUnit {j : Nat} (h : WriteProgress s) (hphase : s.fl.phase = .wBusy j) :
    WriteProgress (s.setFl { s.fl with
      mem := programmedMem s j, busy := false, err := s.fl.err || Config.drawFail s.draws, phase := .wMode,
      unit := j + 1 }).countDraw := by
  obtain ⟨hsafe, hprogress⟩ := h
  obtain ⟨hdata, -⟩ := unit_inside hsafe hphase
  have hbound := programmedMem_bound hsafe hphase
  obtain ⟨hmem, hfields, hkey, hoperands⟩ := hsafe
  simp only [phaseFields, hphase] at hfields
  obtain ⟨hlocked, hmode, -, herr, hop, hunit, -⟩ := hfields
  obtain ⟨hregion, hoffset, hlength, -⟩ := hoperands hop
  refine ⟨⟨⟨programmedMem_wf hmem.1 j, hbound⟩, ⟨hlocked, hmode, rfl, hop⟩, hkey, fun _ => ⟨hregion, hoffset, hlength, nofun⟩⟩,
    fun hscan _ hnone a ha => ?_⟩
  have hfail : Config.drawFail s.draws = false := (Bool.or_eq_false_iff.mp hnone).2
  have hbefore := hprogress hscan hop herr a ha
  rw [hunit] at hbefore
  exact memGet_programmedMem_of_progress hmem.1 hdata hfail hbefore

/-! ## Every move and every step -/

theorem FlMove.writeProgress {i : Instr} {t : State} (m : FlMove i s t) (h : WriteProgress s) : WriteProgress t := by
  cases m with
  | answer r => exact h
  | notClean => exact h
  | beginErase hphase => exact writeProgress_beginErase h hphase
  | beginWrite hphase _ hregion hunits hclean => exact writeProgress_beginWrite h hphase hregion hunits hclean
  | unlock hphase hop hkeys => exact writeProgress_unlock h hphase hop hkeys
  | selectErase hphase => exact writeProgress_selectErase h hphase
  | startErase hphase => exact writeProgress_startErase h hphase
  | completeErase _ hphase => exact writeProgress_completeErase h hphase
  | selectProgram hphase => exact writeProgress_selectProgram h hphase
  | programUnit hphase herr hunit hmore => exact writeProgress_programUnit h hphase herr hunit hmore
  | completeUnit _ hphase => exact writeProgress_completeUnit h hphase
  | verify failed r hphase herr => exact writeProgress_verify failed r h hphase herr
  | lock r log => exact writeProgress_lock h r log

end

theorem exec_writeProgress {i : Instr} {s t : State} (h : exec i s = .next t) (hs : WriteProgress s) : WriteProgress t := by
  rcases exec_unit_cases h with ⟨c, rfl⟩ | ⟨-, -, kept | m, -⟩
  · exact writeProgress_systemReset c hs.1
  · exact writeProgress_of_eq (unitsOwnTheirState i s t h).1 kept hs
  · exact m.writeProgress hs

/-- Settles O48: one lemma per phase; the completed unit is the one that advances the write. -/
theorem stepKeepsTheWriteProgress : Obligations.StepKeepsTheWriteProgress := by
  intro s t hs h
  obtain ⟨i, p, n, hexec, -⟩ := step_next h
  exact exec_writeProgress hexec hs

end Sys2Proof.Machine
end

section
/-! Which agent moves next (00_scope.md R10, 60_exceptions.md R342): when a request waits, and what the block does by itself. -/

namespace Sys2Proof.Machine

/-! ## The request on the port -/

/-- With nothing presented the block moves by itself. -/
theorem step_of_empty_port {s : State} (hport : s.port = []) : step s = ownStep s := by
  simp only [step, fetch, hport]

section
variable {s : State} {r : Request} {rest : List Request} {i : Instr}

theorem step_of_runs (hport : s.port = r :: rest) (hdecode : decode r = .ok i) (hissuer : mayIssue r.agent i = true)
    (hwaits : waits i s = false) : step s = exec i { s with port := rest, boot := bootAfter s.boot i } := by
  simp only [step, fetch, hport, hdecode, hissuer, hwaits]
  rfl

theorem step_of_waits (hport : s.port = r :: rest) (hdecode : decode r = .ok i) (hissuer : mayIssue r.agent i = true)
    (hwaits : waits i s = true) : step s = ownStep s := by
  simp only [step, fetch, hport, hdecode, hissuer, hwaits, if_true]

end

theorem atException_iff (s : State) : atException s = true ↔ s.hf.phase ≠ .idle := by
  simp [atException]

theorem atException_of_idle {s : State} (h : s.hf.phase = .idle) : atException s = false := by
  simp [atException, h]

/-- SW is held at exception level and inside a flash operation (R75, R76, R305). -/
theorem softwareHeld_iff (s : State) :
    softwareHeld s = true ↔ s.hf.phase ≠ .idle ∨ s.fl.phase ≠ .ready ∨ s.fl.op ≠ .none := by
  rw [softwareHeld, Bool.or_eq_true, atException_iff, Bool.not_eq_true', ← Bool.not_eq_true, flIdle_iff, not_and_or]

/-- A request waits while SW is held, before the boot sequence has come to it, and, a phase of SW, at exception level (logs 2, 4, 20). -/
theorem waits_iff (i : Instr) (s : State) :
    waits i s = true ↔
      isSoftware (issuerOf i) = true ∧
        (s.hf.phase ≠ .idle ∨ s.fl.phase ≠ .ready ∨ s.fl.op ≠ .none ∨ bootAdmits s.cfg s.boot i = false) ∨
      isSoftwarePhase i = true ∧ s.hf.phase ≠ .idle := by
  simp only [waits, Bool.or_eq_true, Bool.and_eq_true, Bool.not_eq_true', softwareHeld_iff, atException_iff, or_assoc]

/-! ## The block's own step -/

section
variable {s : State}

/-- A stuck sequencer leaves the watchdog, or nothing (R310, R311). -/
theorem ownStep_of_stuck (hphase : s.hf.phase ≠ .idle) (hstuck : s.hf.stuck = true) :
    ownStep s = if s.wdg.armed = true then exec .wdgTick s else .fault .stuck := by
  rw [ownStep, if_pos ((atException_iff s).mpr hphase), if_pos hstuck]
  rfl

/-- At exception level the sequencer takes its next step (R309). -/
theorem ownStep_of_running (hphase : s.hf.phase ≠ .idle) (hstuck : s.hf.stuck = false) : ownStep s = sequencerStep s := by
  rw [ownStep, if_pos ((atException_iff s).mpr hphase), if_neg (Bool.eq_false_iff.mp hstuck)]

theorem ownStep_of_entered (hphase : s.hf.phase = .entered) (hstuck : s.hf.stuck = false) : ownStep s = exec .hfCapture s := by
  rw [ownStep_of_running (by simp [hphase]) hstuck]
  simp only [sequencerStep, hphase]
  rfl

theorem ownStep_of_captured (hphase : s.hf.phase = .captured) (hstuck : s.hf.stuck = false) : ownStep s = exec .hfLog s := by
  rw [ownStep_of_running (by simp [hphase]) hstuck]
  simp only [sequencerStep, hphase]
  rfl

theorem ownStep_of_logged (hphase : s.hf.phase = .logged) (hstuck : s.hf.stuck = false) : ownStep s = exec .hfReset s := by
  rw [ownStep_of_running (by simp [hphase]) hstuck]
  simp only [sequencerStep, hphase]
  rfl

/-- Outside it, the flash operation in progress comes first, and then what SW does unasked. -/
theorem ownStep_of_idle (hphase : s.hf.phase = .idle) : ownStep s = flashStep s :=
  if_neg (by simp [atException_of_idle hphase])

theorem flashStep_of_unlocking (hphase : s.fl.phase = .ready) (hop : s.fl.op ≠ .none) : flashStep s = exec .flcUnlock s := by
  simp only [flashStep, hphase, if_neg hop]
  rfl

theorem flashStep_of_ready (hphase : s.fl.phase = .ready) (hop : s.fl.op = .none) : flashStep s = idleStep s := by
  simp only [flashStep, hphase, if_pos hop]

theorem flashStep_of_eUnlocked (hphase : s.fl.phase = .eUnlocked) : flashStep s = exec .flcSelectErase s := by
  simp only [flashStep, hphase]
  rfl

theorem flashStep_of_eSelected (hphase : s.fl.phase = .eSelected) : flashStep s = exec .flcStartErase s := by
  simp only [flashStep, hphase]
  rfl

theorem flashStep_of_eBusy (hphase : s.fl.phase = .eBusy) :
    flashStep s = if Config.drawReady s.draws = true then exec .flcCompleteErase s
      else exec .wdgTick { s with draws := s.draws + 1 } := by
  simp only [flashStep, hphase]
  rfl

theorem flashStep_of_eDone (hphase : s.fl.phase = .eDone) :
    flashStep s = if s.fl.complete = true then exec .flcLock s else exec .wdgTick s := by
  simp only [flashStep, hphase]
  rfl

theorem flashStep_of_wUnlocked (hphase : s.fl.phase = .wUnlocked) : flashStep s = exec .flcSelectProgram s := by
  simp only [flashStep, hphase]
  rfl

theorem flashStep_of_wMode (hphase : s.fl.phase = .wMode) :
    flashStep s = if s.fl.busy = true then exec .wdgTick s
      else if s.fl.err = true then exec .flcLock s
      else if s.fl.unit < s.fl.data.length / s.cfg.progUnit then exec (.flcProgramUnit s.fl.unit) s
      else exec .flcVerify s := by
  simp only [flashStep, hphase, unitWaitOver, Bool.not_eq_false']
  rfl

theorem flashStep_of_wBusy {k : Nat} (hphase : s.fl.phase = .wBusy k) :
    flashStep s = if Config.drawReady s.draws = true then exec (.flcCompleteUnit k) s
      else exec .wdgTick { s with draws := s.draws + 1 } := by
  simp only [flashStep, hphase]
  rfl

theorem flashStep_of_wVerify (hphase : s.fl.phase = .wVerify) : flashStep s = exec .flcLock s := by
  simp only [flashStep, hphase]
  rfl

theorem idleStep_of_arm (hboot : s.boot = .arm) : idleStep s = exec (.wdgArm s.cfg.wdgTimeout) { s with boot := .store } := by
  simp only [idleStep, hboot]
  rfl

theorem idleStep_of_store (hboot : s.boot = .store) : idleStep s = exec .flBoot { s with boot := .tasks } := by
  simp only [idleStep, hboot]
  rfl

theorem idleStep_of_tasks (hboot : s.boot = .tasks) :
    idleStep s = if s.wdg.armed = true ∧ 0 < s.wdg.cnt ∧ s.cfg.feedPeriod ≤ s.wdg.cnt then exec .wdgFeed s else exec .wdgTick s := by
  simp only [idleStep, hboot, feedDue, Bool.and_eq_true, decide_eq_true_eq, and_assoc]
  rfl

end

/-- Settles O5: the port's request where it runs, and one equation of the block's own step per state it can be in. -/
theorem stepRunsTheDecodedRequest : Obligations.StepRunsTheDecodedRequest := by
  intro s
  refine ⟨fun r rest i hport hdecode hissuer => ⟨step_of_runs hport hdecode hissuer, step_of_waits hport hdecode hissuer⟩,
    step_of_empty_port, fun i => waits_iff i s, fun hstuck => ⟨(ownStep_of_entered · hstuck), (ownStep_of_captured · hstuck),
    (ownStep_of_logged · hstuck)⟩, fun hidle => ?_⟩
  rw [ownStep_of_idle hidle]
  refine ⟨flashStep_of_unlocking, flashStep_of_eUnlocked, flashStep_of_eSelected, flashStep_of_eBusy, flashStep_of_eDone,
    flashStep_of_wUnlocked, flashStep_of_wMode, fun _ => flashStep_of_wBusy, flashStep_of_wVerify, fun hphase hop => ?_⟩
  rw [flashStep_of_ready hphase hop]
  exact ⟨idleStep_of_arm, idleStep_of_store, idleStep_of_tasks⟩

/-- Settles O56: at exception level a request of SW waits, so the block moves by itself, and the sequencer is stuck. -/
theorem secondFaultLeavesOnlyTheWatchdog : Obligations.SecondFaultLeavesOnlyTheWatchdog := by
  intro s hphase hstuck
  have own : (s.wdg.armed = true → ownStep s = exec .wdgTick s) ∧ (s.wdg.armed = false → ownStep s = .fault .stuck) := by
    rw [ownStep_of_stuck hphase hstuck]
    exact ⟨fun harmed => if_pos harmed, fun harmed => if_neg (Bool.eq_false_iff.mp harmed)⟩
  constructor
  · intro r rest i hport hdecode hissuer hsoftware
    rw [step_of_waits hport hdecode hissuer ((waits_iff i s).mpr (.inl ⟨hsoftware, .inl hphase⟩))]
    exact own
  · intro hport
    rw [step_of_empty_port hport]
    exact own

/-! ## The boot sequence -/

theorem bootAdmits_arm {p : Params} {i : Instr} (h : i ≠ .wdgArm p.wdgTimeout) : bootAdmits p .arm i = false := by
  unfold bootAdmits
  split
  · next n _ =>
    rw [beq_eq_false_iff_ne]
    rintro rfl
    exact h rfl
  · rfl
  all_goals contradiction

theorem bootAdmits_store {p : Params} {i : Instr} (hboot : i ≠ .flBoot) (hread : ∀ o n, i ≠ .flRead o n) :
    bootAdmits p .store i = false := by
  unfold bootAdmits
  split
  · contradiction
  · contradiction
  · exact absurd rfl (hread _ _)
  · exact absurd rfl hboot
  · rfl
  · contradiction

/-- SW stays at its place but for the two operations that move it (R375). -/
theorem bootAfter_of_other {b : BootStep} {i : Instr} (harm : ¬(b = .arm ∧ ∃ n, i = .wdgArm n)) (hboot : ¬(b = .store ∧ i = .flBoot)) :
    bootAfter b i = b := by
  unfold bootAfter
  split
  · exact absurd ⟨rfl, _, rfl⟩ harm
  · exact absurd ⟨rfl, rfl⟩ hboot
  · rfl

/-- A request of SW that the boot sequence has not come to waits (log 20). -/
theorem step_of_not_admitted {s : State} {r : Request} {rest : List Request} {i : Instr} (hport : s.port = r :: rest)
    (hdecode : decode r = .ok i) (hissuer : mayIssue r.agent i = true) (hsoftware : isSoftware (issuerOf i) = true)
    (hboot : bootAdmits s.cfg s.boot i = false) : step s = ownStep s :=
  step_of_waits hport hdecode hissuer ((waits_iff i s).mpr (.inl ⟨hsoftware, .inr (.inr (.inr hboot))⟩))

/-- With nothing presented and nothing in progress, a step is what SW does unasked. -/
theorem step_of_idle {s : State} (hport : s.port = []) (hidle : s.hf.phase = .idle) (hphase : s.fl.phase = .ready)
    (hop : s.fl.op = .none) : step s = idleStep s := by
  rw [step_of_empty_port hport, ownStep_of_idle hidle, flashStep_of_ready hphase hop]

/-- After the arming the step is FL.BOOT (R375). -/
theorem step_of_boot_store {s : State} (hport : s.port = []) (hidle : s.hf.phase = .idle) (hphase : s.fl.phase = .ready)
    (hop : s.fl.op = .none) (hboot : s.boot = .store) :
    step s = .next (if regionDirty s then beginErase { s with boot := .tasks } else { s with boot := .tasks, ret := .ok }) := by
  rw [step_of_idle hport hidle hphase hop, idleStep_of_store hboot]
  exact exec_flBoot_of_ready hphase hop

/-- Settles O51: the two operations SW issues by itself, and what waits for them. -/
theorem bootArmsThenEntersEraseWhenDirty : Obligations.BootArmsThenEntersEraseWhenDirty := by
  refine ⟨?boots, ?waiting, fun _ => rfl, rfl, fun _ _ => bootAfter_of_other⟩
  case boots =>
    intro s u hboot hport hidle hphase hop harmed hpos hu
    have second : step u = .next (if regionDirty u then beginErase { u with boot := .tasks } else { u with boot := .tasks, ret := .ok }) :=
      step_of_boot_store (by rw [hu]; exact hport) (by rw [hu]; exact hidle) (by rw [hu]; exact hphase) (by rw [hu]; exact hop)
        (by rw [hu])
    have same_region : regionDirty u = regionDirty s := by rw [hu]; rfl
    rw [second, same_region]
    refine ⟨?_, fun clean => ?_, fun dirty => ?_⟩
    · rw [step_of_idle hport hidle hphase hop, idleStep_of_arm hboot, hu]
      exact exec_wdgArm_of_unarmed harmed hpos
    · rw [regionDirty_of_forall clean]
      rfl
    · rw [regionDirty_of_exists dirty]
      rfl
  case waiting =>
    intro s r rest i hport hdecode hissuer hsoftware
    constructor
    · intro hboot harm
      exact step_of_not_admitted hport hdecode hissuer hsoftware (by rw [hboot]; exact bootAdmits_arm harm)
    · intro hboot hother hread
      exact step_of_not_admitted hport hdecode hissuer hsoftware (by rw [hboot]; exact bootAdmits_store hother hread)

/-! ## While SW is held -/

/-- The units of the rows that are presented by no part of SW (R112). -/
theorem unitOf_of_not_software {i : Instr} (h : isSoftware (issuerOf i) = false) :
    unitOf i = .fl ∨ unitOf i = .wdg ∨ unitOf i = .hf ∨ unitOf i = .sys := by
  cases i <;> simp_all [unitOf, issuerOf, isSoftware]

/-- Such a row, unless it is a reset, keeps the port, SW's place, the decoder, the message layer and what they emit. -/
theorem exec_frame_of_not_software {i : Instr} {s t : State} (hsoftware : isSoftware (issuerOf i) = false) (h : exec i s = .next t)
    (hresets : t.resets = s.resets) :
    t.port = s.port ∧ t.boot = s.boot ∧ t.dec = s.dec ∧ t.ctx = s.ctx ∧ t.tx = s.tx ∧ t.decOut = s.decOut := by
  rcases exec_next h with ⟨c, rfl⟩ | m
  · exact absurd hresets (resets_systemReset_ne c s)
  rcases unitOf_of_not_software hsoftware with hunit | hunit | hunit | hunit <;> rw [hunit] at m
  · obtain ⟨f, r, log, n, rfl⟩ := FlMove.frame m
    exact ⟨rfl, rfl, rfl, rfl, rfl, rfl⟩
  · obtain ⟨w, rfl⟩ := WdgMove.frame m
    exact ⟨rfl, rfl, rfl, rfl, rfl, rfl⟩
  · obtain ⟨f, log, rfl⟩ := HfMove.frame m
    exact ⟨rfl, rfl, rfl, rfl, rfl, rfl⟩
  · exact m.elim

/-- SW's place moves by SW's own operations. -/
theorem bootAfter_of_not_software {i : Instr} (h : isSoftware (issuerOf i) = false) (b : BootStep) : bootAfter b i = b := by
  refine bootAfter_of_other ?_ ?_
  · rintro ⟨-, n, rfl⟩; cases h
  · rintro ⟨-, rfl⟩; cases h

/-- At exception level the block's own step is a row of the sequencer or of the watchdog. -/
theorem ownStep_of_exception {s t : State} (hphase : s.hf.phase ≠ .idle) (h : ownStep s = .next t) :
    ∃ i, exec i s = .next t ∧ unitOf i ≠ .fl := by
  cases hstuck : s.hf.stuck with
  | true =>
    rw [ownStep_of_stuck hphase hstuck] at h
    split at h
    · exact ⟨_, h, nofun⟩
    · cases h
  | false =>
    cases hplace : s.hf.phase with
    | idle => exact absurd hplace hphase
    | entered => exact ⟨_, (ownStep_of_entered hplace hstuck).symm.trans h, nofun⟩
    | captured => exact ⟨_, (ownStep_of_captured hplace hstuck).symm.trans h, nofun⟩
    | logged => exact ⟨_, (ownStep_of_logged hplace hstuck).symm.trans h, nofun⟩

/-- Settles O6: the request waits, and where SW is held the block's own step is no operation of SW. -/
theorem softwareHasNoStepWhileItMustWait : Obligations.SoftwareHasNoStepWhileItMustWait := by
  intro s t r rest i hport hdecode hissuer hheld hstep hresets
  have waiting : waits i s = true := by
    rw [waits_iff]
    tauto
  have held : softwareHeld s = true := by
    rw [softwareHeld_iff]
    tauto
  rw [step_of_waits hport hdecode hissuer waiting] at hstep
  obtain ⟨j, n, hexec, not_software, -⟩ := ownStep_next hstep
  have hsoftware := not_software held
  rw [bootAfter_of_not_software hsoftware] at hexec
  obtain ⟨hport', hboot, hdec, hctx, htx, hout⟩ := exec_frame_of_not_software hsoftware hexec hresets
  refine ⟨hport', hboot, hdec, hctx, htx, hout, fun hphase => ?_⟩
  obtain ⟨k, hown, hunit⟩ := ownStep_of_exception hphase hstep
  exact exec_fl_of_unitOf_ne hown hresets hunit

end Sys2Proof.Machine
end
